-- ==== Sys2Proof/Word.lean ====
section
/-! DEFINITION. Words of the CX-1664: the 32-bit register and payload word, the byte, and the names of the numbered
instances (R15, R16 and the Names section of 00_scope.md). -/

namespace Sys2Proof

/-- A register word, a payload word or a word of a unit: bit 0 is the least significant bit (R15). -/
abbrev Word := BitVec 32

/-- One byte, of a flash line or of a directory entry. -/
abbrev Byte := BitVec 8

/-- A host port HP0 to HP3. -/
abbrev HostPort := Fin 4

/-- A quad Q0 to Q3 (R23). -/
abbrev Quad := Fin 4

/-- An aerial port P0 to P15 (R23). -/
abbrev Port := Fin 16

/-- A general-purpose CRC unit: 0 names CU4, 3 names CU7 (R454). -/
abbrev CrcUnit := Fin 4

/-- A Midway channel CH0 to CH63 (R421). -/
abbrev Channel := Fin 64

/-- A Midway delay DLY0 to DLY7 (R433). -/
abbrev DelayNo := Fin 8

/-- A Midway ball MW_IN0 to MW_IN3 (R437). -/
abbrev BallNo := Fin 4

/-- An order stamp of the Carousel (R349). -/
abbrev Stamp := BitVec 32

/-- A 96-bit tag name or EPC (R104, R286). -/
abbrev Name := BitVec 96

/-- A complex value of the receive path in integers. -/
structure Cx where
  re : Int
  im : Int
  deriving DecidableEq, Repr, Inhabited

end Sys2Proof
end

