-- ==== Sys2Proof/Syntax.lean ====
section
/-! DEFINITION. The commands of the block: one constructor of `Instr` per row of spec/opcode_table.json, with the row's
operands. A host command names the order stamp `k` of the frame in flight it executes; an event names where it falls and
what the outside supplies to it. -/

namespace Sys2Proof

/-- The supplies (R497): VDD_CORE, VDD_AN, VDD_DRV and VDD_IO. -/
inductive Supply where
  | core
  | an
  | drv
  | io
  deriving DecidableEq, Repr

/-- The sequencers with a watchdog (R479): an executing unit with its command, the calibration table loader, the directory's
steps, and the Juggler on a quad. -/
inductive Watched where
  | command (k : Stamp)
  | table
  | directory
  | juggler (q : Quad)
  deriving DecidableEq, Repr

/-- One measurement of a tuner search (R254): return loss in 0.01 dB and phase of Γ in 1/256 turn. -/
structure TuneMeas where
  rl : Nat
  phase : BitVec 8
  deriving DecidableEq, Repr

  /-- What a calibration measured on one port in one step: the tone's phase against the calibration reference in 0.01° and
its level beyond the one expected at the step's GAIN in 0.001 dB; by how much Q stands above I in 0.001 dB and short of
quadrature in 0.01°; the image rejection verified in 0.01 dB; and whether the port was overloaded (R303 to R305). Of a
CAL_RUN TXPH, `phase` is the incident channel's, as it reads (R307). -/
structure PortCal where
  port : Port
  phase : BitVec 16
  level : Int
  qAbove : Int
  qShort : Int
  img : Nat
  overload : Bool
  deriving DecidableEq, Repr

  /-- One reading of a port's mismatch detector (R251): return loss in 0.01 dB, phase of Γ in 1/256 turn, the reflection
phase translated to ANT_Pn in 1/256 turn (R258), and the incident channel's phase against the calibration reference, int16
in 0.01° (R308). -/
structure DetMeas where
  rl : Nat
  phase : BitVec 8
  ant : BitVec 8
  inc : BitVec 16
  deriving DecidableEq, Repr

  /-- The correlator output energies of a port in the noise phase, one per timing offset: energies of a 16-chip
correlation, on the scale of `fullScale`, ahead of the gain calibration (R158). -/
  structure NoiseMeas where
    port : Port
    energies : List Nat
    deriving DecidableEq, Repr

  /-- A known symbol of an ISO/IEC 18000-63 reply: its correlation on time, and 1/4 chip early and late (R176, R177, R186). -/
  structure Known where
    z : Cx
    early : Cx
    late : Cx
    deriving DecidableEq, Repr

  /-- A port's preamble tap for an ISO/IEC 18000-63 reply: the correlations of the preamble's symbols, as they leave the ADC,
without correction (R290). -/
  structure PortTap where
    port : Port
    pil : List Cx
    deriving DecidableEq, Repr

  /-- What a verdict is given on: a Stamet frame, which the chain reads from the samples its port holds; or an ISO/IEC
18000-63 reply's symbols, with the measure of its preamble, whether every symbol decodes with its closing dummy 1, and its
bits (R278). -/
  inductive RxInput where
    | stamet
    | iso (known : List Known) (coded : Bool) (bits : List Bool)
    deriving DecidableEq, Repr

  /-- What a port's chain decoded: a Stamet frame reply (header of R78, payload words, received CRC-24), or an ISO/IEC
18000-63 reply (its verdict, and its bits). -/
  inductive RxContent where
    | stamet (hdr : BitVec 8) (words : List (BitVec 16)) (crc : BitVec 24)
    | iso (ok : Bool) (bits : List Bool)
    deriving DecidableEq, Repr

  /-- What a tap supplies to the bearing engine (R181, R290): pilot SNR as a power ratio in thousandths, the complex
amplitude, and the phase slope as Doppler in 0.001 Hz (R153). -/
  structure PilotMeas where
    port : Port
    snr : Nat
    re : Int
    im : Int
    dop : Int
    deriving DecidableEq, Repr

  /-- What a correlator locks on beyond the samples its port already holds: the ADC samples of the AGC block in progress;
and, in an ISO/IEC 18000-63 exchange, the preamble's symbol correlations, oldest first, the reply's link frequency in Hz and
the preamble symbols still to come (R165, R186, R276, R277). -/
  structure LockMeas where
    rest : List Cx
    syms : List Cx
    freq : Nat
    left : Nat
    deriving DecidableEq, Repr

  /-- What the SECDED logic finds on a read of a bucket (R142). -/
inductive EccErr where
  | none
  | single
  | double
  deriving DecidableEq, Repr

  /-- The engines that read the XIP window (R448). -/
inductive Engine where
  | boot
  | table
  | patch
  deriving DecidableEq, Repr

  /-- The commands and events of spec/opcode_table.json. -/
inductive Instr where
  /-- NOP (R376). Host command that does nothing and completes at dispatch + 8. -/
  | nop (k : Stamp)
  /-- GET_CAPS (R415). Host command that returns the capability chain from word 0x0008 to 0x0022. -/
  | getCaps (k : Stamp)
  /-- GET_STATUS (R378). Host command that reads SYS_ERR and the port's HP_STAT and HP_QUEUE, then clears the SYS_ERR
  bits named in CLEAR. -/
  | getStatus (k : Stamp)
  /-- SNAPSHOT (R364). Host command that returns a coherent state block cut in its dispatch E-cycle. -/
  | snapshot (k : Stamp)
  /-- LEASE (R361). Host command that leases a mask of quads to the issuing port, as a whole, at dispatch + 8. -/
  | lease (k : Stamp)
  /-- UNLEASE (R362). Host command that releases leases, or revokes them with FORCE from the primary; it ends the
  quads' commands, turns off their fields and queues lease notices. -/
  | unlease (k : Stamp)
  /-- RESET_DEVICE (R379). Primary-only host command that cuts the drivers, discards all queues and enters full reset
  at dispatch + 8. -/
  | resetDevice (k : Stamp)
  /-- REG_READ (R381). Host command that reads COUNT register words, all taken in the dispatch E-cycle. -/
  | regRead (k : Stamp)
  /-- REG_WRITE (R382). Host command that checks lease and ceiling for every word, then writes all its words together
  in the completion E-cycle. -/
  | regWrite (k : Stamp)
  /-- REG_MODIFY (R382). Host command that does a masked read-modify-write of one register word in one E-cycle and
  returns OLD and NEW. -/
  | regModify (k : Stamp)
  /-- SYNTH_SET (R194). Host command that sets a quad's channel, with an optional band calibration and a field-on
  retune, then waits for lock. -/
  | synthSet (k : Stamp)
  /-- SYNTH_CAL (R199). Host command that runs a VCO band calibration on a quad whose field is off, then relocks. -/
  | synthCal (k : Stamp)
  /-- FIELD_ON (R208). Host command that claims the field token, checks ceiling and region, enables drivers and ramps
  the carrier up. -/
  | fieldOn (k : Stamp)
  /-- FIELD_OFF (R208). Preemptive host command that ramps down the named quads' fields, ends their rounds and returns
  the tokens to FREE. -/
  | fieldOff (k : Stamp)
  /-- POWER_SET (R385). Host command that writes power-table INDEX for named ports, or PA_BIAS in external-PA mode,
  after the ceiling check. -/
  | powerSet (k : Stamp)
  /-- TUNE_PORT (R254). Host command that runs the fixed 61-measurement tuner search on one port and writes the best
  setting. -/
  | tunePort (k : Stamp) (meas : List TuneMeas)
  /-- BEAM_LOAD (R386). Host command that writes one whole beam at dispatch + 40, moving the rotators where the beam
  is applied. -/
  | beamLoad (k : Stamp)
  /-- BEAM_SELECT (R385). Host command that applies a beam's rotator settings to a quad or the ring after the ceiling
  check. -/
  | beamSelect (k : Stamp)
  /-- BARKER_ARM (R262). Host command that arms or disarms Barker on a port mask and takes ownership of Barker
  records. -/
  | barkerArm (k : Stamp)
  /-- RING_MODE (R202). Host command that enters or leaves coherent ring mode, settling the LO distribution or
  relocking the synthesisers. -/
  | ringMode (k : Stamp)
  /-- CAL_RUN (R310). Host command that runs a receive calibration sequence or a transmit phase calibration on a quad.
  -/
  | calRun (k : Stamp) (meas : List (List PortCal))
  /-- CAL_LOAD_SET (R311). Host command that loads one POWER or OFS calibration set for a port after monotonicity and
  nominal-range tests. -/
  | calLoadSet (k : Stamp)
  /-- CAL_READ (R312). Host command that returns a POWER, OFS, receive-result or built-in nominal set as a cut at
  dispatch. -/
  | calRead (k : Stamp)
  /-- ST_ROUND (R116). Host command that starts a sequence of Stamet inventory rounds over beams and sweeps on the
  named quads. -/
  | stRound (k : Stamp)
  /-- ST_SELECT (R391). Host command that runs one Stamet round seeking a given name and leaves that tag Active as the
  quad's selection. -/
  | stSelect (k : Stamp)
  /-- ST_READ (R392). Host command that reselects the held tag and reads CNT words from it. -/
  | stRead (k : Stamp)
  /-- ST_WRITE (R112). Host command that reselects the held tag and writes one word by PREPARE and COMMIT with
  resends, reporting WRITE_STEP. -/
  | stWrite (k : Stamp)
  /-- ST_HALT (R392). Host command that reselects the held tag and halts it. -/
  | stHalt (k : Stamp)
  /-- ST_SENSE (R392). Host command that reselects the held tag and reads one sensor channel. -/
  | stSense (k : Stamp)
  /-- ST_RAW (R393). Host command that sends one host-built Stamet frame and reports the receiver's classification and
  port outcomes. -/
  | stRaw (k : Stamp)
  /-- G_INVENTORY (R282). Host command that writes the ISO link set and starts a sequence of ISO/IEC 18000-63
  inventory rounds. -/
  | gInventory (k : Stamp)
  /-- G_READ (R396). Host command that singulates one ISO tag by EPC mask and reads words from a bank. -/
  | gRead (k : Stamp)
  /-- G_WRITE (R396). Host command that singulates one ISO tag and writes, block-writes or block-erases words. -/
  | gWrite (k : Stamp)
  /-- G_LOCK (R396). Host command that singulates one ISO tag and sends Lock. -/
  | gLock (k : Stamp)
  /-- G_KILL (R396). Host command that singulates one ISO tag and kills it with its password. -/
  | gKill (k : Stamp)
  /-- G_RAW (R397). Host command that sends one host-built ISO frame with a permitted command code and returns the
  decoded reply bits. -/
  | gRaw (k : Stamp)
  /-- DIR_LOOKUP (R398). Host command that looks up a name in the directory and returns its entry as at dispatch. -/
  | dirLookup (k : Stamp) (ecc : List (Nat × EccErr))
  /-- DIR_STREAM (R139). Host command that scans every bucket and streams filtered entries as a cut at its dispatch.
  -/
  | dirStream (k : Stamp) (ecc : List (Nat × EccErr))
  /-- DIR_CLEAR (R140). Host command that empties entries or clears seen state in one step at dispatch. -/
  | dirClear (k : Stamp)
  /-- DIR_LOAD (R140). Host command that inserts up to 84 names with EXPECTED set, displacing entries as needed. -/
  | dirLoad (k : Stamp) (ecc : List (Nat × EccErr))
  /-- DIR_STATS (R398). Host command that returns directory statistics and optionally clears their counters and flags.
  -/
  | dirStats (k : Stamp)
  /-- DIR_MISSING (R141). Host command that scans for expected entries unseen, or unseen since a stamp. -/
  | dirMissing (k : Stamp) (ecc : List (Nat × EccErr))
  /-- MP_XFER (R446). Host command that performs one SPI transfer of LEN bits on a memory chip select. -/
  | mpXfer (k : Stamp)
  /-- MP_MAP (R453). Host command that sets the XIP window map, sends an exit sequence and invalidates the prefetch
  lines. -/
  | mpMap (k : Stamp)
  /-- JOURNAL_READ (R400). Host command that returns journal records by row. -/
  | journalRead (k : Stamp)
  /-- REGION_SET (R192). Primary-only host command that journals a new region plan. -/
  | regionSet (k : Stamp)
  /-- CEILING_SET (R214). Primary-only host command that journals a new EIRP ceiling. -/
  | ceilingSet (k : Stamp)
  /-- ROLE_SET (R341). Primary-only host command that journals a new primary host port. -/
  | roleSet (k : Stamp)
  /-- PATCH_LOAD (R483). Primary-only host command that reads a patch image from flash into the inactive bank and
  checks it. -/
  | patchLoad (k : Stamp)
  /-- PATCH_SWAP (R484). Primary-only host command that holds new rounds until no quad is in a round, then swaps the
  patch banks. -/
  | patchSwap (k : Stamp)
  /-- UNASSIGNED_OPCODE (R344). A committed frame with an unassigned opcode is refused with BAD_OPCODE at dispatch +
  8. -/
  | unassignedOpcode (k : Stamp)
  /-- TB_CTRL_CAPTURE (R56). A write of 1 to TB_CTRL.CAPTURE copies TB_NOW, TB_EPOCH and CAP_PHASE into the capture
  registers. -/
  | tbCtrlCapture
  /-- GEOM_APPLY (R149). A write of 1 to SYS_BEAR_CTRL.GEOM_APPLY applies the staged geometry of all ports together.
  -/
  | geomApply
  /-- CH_OUT_SET (R437). A CH_OUT_CTRL.SET write sets the MW_OUTn output bits it names. -/
  | chOutSet (m : BitVec 4)
  /-- CH_OUT_CLR (R437). A CH_OUT_CTRL.CLR write clears the MW_OUTn output bits it names, with precedence over SET. -/
  | chOutClr (m : BitVec 4)
  /-- CH_OUT_TGL (R437). A CH_OUT_CTRL.TGL write inverts the MW_OUTn output bits it names. -/
  | chOutTgl (m : BitVec 4)
  /-- CH_DLY_START (R433). A CH_DLY_CTRL.START write starts or restarts the named delays with their loaded lengths. -/
  | chDlyStart (m : BitVec 8)
  /-- CH_DLY_STOP (R433). A CH_DLY_CTRL.STOP write makes the named delays idle without firing DONE. -/
  | chDlyStop (m : BitVec 8)
  /-- CU_START (R457). A write of 1 to CU_CTRL.START loads run from INIT, zeroes CU_BITS and resets the verdict and
  alive capture. -/
  | cuStart (u : CrcUnit)
  /-- CU_CHECK (R457). A write to CU_CHECK closes the frame and judges it against the result and the alive rule. -/
  | cuCheck (u : CrcUnit) (v : Word)
  /-- CU_DATA_WINDOW (R456). A write to a CRC unit's data window feeds PART bits of each word into the running CRC. -/
  | cuDataWindow (u : CrcUnit) (vals : List Word)
  /-- RCL_READ_CLEAR (R409). A read of an RCL counter by REG_READ or REG_MODIFY returns its value and clears it. -/
  | rclReadClear (h : HostPort) (addr : BitVec 16)
  /-- REGISTER_WRITE (R410). A write to any register without a row of its own sets RW fields, clears W1C bits and is
  subject to deferral rules. -/
  | registerWrite (h : HostPort) (addr : BitVec 16) (v : Word)
  /-- SELN_FALL (R334). A host port's SELn falls: it samples the SPI mode and starts the status word on MISO. -/
  | selnFall (h : HostPort) (sck : Bool)
  /-- DRAIN (R335). A DRAIN link transaction announces and sends the longest run of whole queued units. -/
  | drain (h : HostPort) (nbits : Nat)
  /-- REPLAY (R336). A REPLAY link transaction re-sends the held units and keeps them held. -/
  | replay (h : HostPort) (nbits : Nat)
  /-- COMMAND_FRAME (R326). At SELn rise a command frame is judged: committed, discarded or treated as a repeat, and
  announced units are delivered. -/
  | commandFrame (h : HostPort) (nbits : Nat) (mosi : List Word)
  /-- DUP_UNIT (R331). The DUP unit of a repeat is queued once the original command has finished, behind its reply. -/
  | dupUnit (h : HostPort)
  /-- READY_STRETCH (R337). A host port takes READY low at a word boundary until the next unit word is fetched, at
  most 256 E-cycles. -/
  | readyStretch (h : HostPort) (cycles : Nat)
  /-- IRQN_UPDATE (R338). IRQn follows the reply and record conditions, including the REC_AGE timer, four E-cycles
  after they change. -/
  | irqnUpdate (h : HostPort)
  /-- CAROUSEL_ENTRY (R349). A committed command enters the Carousel 6 E-cycles after SELn rises and takes its order
  stamp. -/
  | carouselEntry
  /-- TURNED_AWAY (R357). A command committed beyond the in-flight limit takes a stamp but no slot, and a TIMEOUT
  reply is queued at entry + 2. -/
  | turnedAway
  /-- COMMAND_COMPLETE (R354). A command completes in the E-cycle of its last effect, which frees nothing yet and
  fixes its snapshot cut. -/
  | commandComplete (k : Stamp)
  /-- REPLY_QUEUED (R354). The final reply unit is queued at completion + 1 and the in-flight slot and TAG are freed,
  unless QUIET suppresses the reply. -/
  | replyQueued (k : Stamp)
  /-- COMMAND_UNIT_RESUME (R358). A command paused at a unit boundary on a full command queue resumes when a place
  frees. -/
  | commandUnitResume (k : Stamp)
  /-- TOKEN_REFRESH (R35). The control half refreshes a CONTROL token every 2,048 E-cycles, restarting the radio
  half's timer. -/
  | tokenRefresh (q : Quad)
  /-- RING_LOST (R36). A token timer reaching 3,932 E-cycles cuts the quad unshaped, puts the token in LOST and ends
  its commands with FIELD_LOST. -/
  | ringLost (q : Quad)
  /-- LOCK_DECLARED (R193). A synthesiser declares lock, releasing transmit actions held under WAIT_E. -/
  | lockDeclared (q : Quad)
  /-- LOCK_TO (R193). A synthesiser not locked within 29,491 E-cycles sets LOCK_TO and the waiting command ends with
  TIMEOUT. -/
  | lockTo (q : Quad)
  /-- SYN_UNLOCK (R195). A loss of lock while radiating cuts the quad unshaped, returns the token to FREE and ends its
  commands with FIELD_LOST. -/
  | synUnlock (q : Quad)
  /-- BAND_CAL_COMPLETE (R198). A VCO band calibration ends, recording the band and temperature, and the synthesiser
  starts to relock. -/
  | bandCalComplete (q : Quad) (band : BitVec 6)
  /-- JUGGLER_BAND_CAL (R299). The Juggler starts a band calibration on a quad in an idle gap when CAL_DUE is set. -/
  | jugglerBandCal (q : Quad)
  /-- QUAD_TEMP_CONVERSION (R295). Every 1 ms each quad's temperature sensor writes a reading, which may set CAL_DUE
  or RX_DUE and change the interpolated TXCODE. -/
  | quadTempConversion (t0 : BitVec 16) (t1 : BitVec 16) (t2 : BitVec 16) (t3 : BitVec 16)
  /-- RECEIVE_STEP_START (R302). The Juggler begins a receive calibration step 16 E-cycles after a suitable gap opens,
  forcing gain and switching the tone on. -/
  | receiveStepStart (q : Quad)
  /-- RECEIVE_STEP_END (R304). A receive step ends; after step V each port is judged and its corrections are written
  or RX_FAIL is set. -/
  | receiveStepEnd (q : Quad) (meas : List PortCal)
  /-- RECEIVE_SEQUENCE_EXPIRY (R303). A receive sequence not completed within 1 s of its step B is discarded and
  restarts from B. -/
  | receiveSequenceExpiry (q : Quad)
  /-- DETECTOR_READING (R251). Every 4,096 E-cycles a radiating port's mismatch detector writes a Γ reading. -/
  | detectorReading (p : Port) (d : DetMeas)
  /-- BARKER_SYN_POWERUP (R264). The Barker sequencer powers a quad's synthesiser up 80 µs before the quad's first
  slot in the period. -/
  | barkerSynPowerup (q : Quad)
  /-- BARKER_SLOT (R263). At a slot start an armed port bursts at −10 dBm, or the slot is skipped and PORT_BARK_SKIP
  counts. -/
  | barkerSlot (p : Port)
  /-- BARKER_COMPARE (R267). After the measure window the burst's Γ is compared with the baseline, updating the run
  and baseline. -/
  | barkerCompare (p : Port) (gi : Int) (gq : Int) (rl : Nat) (phase : BitVec 8)
  /-- BARKER_SLOT_END (R264). After a quad's last slot of the period the burst has ramped down and the synthesiser
  powers down unless kept powered. -/
  | barkerSlotEnd (q : Quad)
  /-- ROUND_START (R119). A round starts on a quad: the RID counter and ROUND counter advance and WAKE is sent. -/
  | roundStart (q : Quad)
  /-- STAMET_FRAME_SEND (R374). The sequencer begins a Stamet forward frame once its T2, carrier settle, lock or hold
  wait has elapsed. -/
  | stametFrameSend (q : Quad)
  /-- ISO_FRAME_SEND (R279). The sequencer begins an ISO/IEC 18000-63 forward frame after T2, T4 or the 1.5 ms carrier
  wait. -/
  | isoFrameSend (q : Quad)
  /-- FRAME_END (R157). A forward frame ends; the receiver enters its settle phase with AGC and cancellers tracking.
  -/
  | frameEnd (q : Quad)
  /-- HUNT_START (R157). 18 µs after frame end the noise floor is held, the canceller holds and correlators begin to
  search. -/
  | huntStart (q : Quad) (noise : List NoiseMeas)
  /-- AGC_BLOCK (R160). Every 160 E-cycles the AGC measures a block and steps the analog gain within its limits and
  headroom cap. -/
  | agcBlock (p : Port) (samples : List Cx)
  /-- RFC_UPDATE (R226). Every 160 E-cycles the RF canceller updates its weight while tracking. -/
  | rfcUpdate (p : Port) (e : Cx)
  /-- RFC_SAT (R228). A canceller weight at its limit for 16 consecutive updates sets RFC_SAT. -/
  | rfcSat (p : Port)
  /-- OVERLOAD (R239). A residual detector block above −20 dBm in the hunt or finish phase removes the port from the
  exchange and counts an overload. -/
  | overload (p : Port) (dbm : Int)
  /-- PREAMBLE_LOCK (R165). A correlator locks on a preamble, and Trapeze assigns it as receiving, switchover, standby
  or ignored. -/
  | preambleLock (p : Port) (tz : Bool) (v : LockMeas)
  /-- SYNC_DECLARATION (R166). A correlator declares sync on the sync word, starting the chain's replay or swapping
  with the receiving frame. -/
  | syncDeclaration (p : Port) (tz : Bool)
  /-- FALSE_START (R171). A lock without sync within its allowance is abandoned, counted, and any standby is judged
  for promotion. -/
  | falseStart (p : Port) (tz : Bool)
  /-- PILOT_QUALITY_ABORT (R171). A frame whose pilot quality is below PQ_THR at its second pilot is aborted as a
  false start. -/
  | pilotQualityAbort (p : Port)
  /-- PORT_CRC_VERDICT (R185). A port delivers a frame's CRC verdict, and any standby is promoted or dropped. -/
  | portCrcVerdict (p : Port) (rx : RxInput)
  /-- COMBINED_VERDICT (R182). Port verdicts are combined at V, valid frames are stamped and enter the directory FIFO,
  and the exchange outcome is set. -/
  | combinedVerdict (q : Quad) (taps : List (List PortTap))
  /-- NO_REPLY_DEADLINE (R86). The no-reply deadline ends the hunt phase: no new preamble lock is accepted. -/
  | noReplyDeadline (q : Quad)
  /-- BIT_REPLY_OUTCOME (R163). The classifier delivers a node outcome of none, one code or both, and the walk chooses
  its next command. -/
  | bitReplyOutcome (q : Quad)
  /-- EXCHANGE_OUTCOME (R374). At O + 8 an exchange ends and the round, walk or command proceeds or ends. -/
  | exchangeOutcome (q : Quad)
  /-- DWELL_EXPIRE (R121). DWELL expires: no new start mark is sent and the round ends after the exchange in progress.
  -/
  | dwellExpire (q : Quad)
  /-- ROUND_END (R121). A round ends, and the sequence moves to the next round with any beam change or ends with its
  status. -/
  | roundEnd (q : Quad)
  /-- BEARING_FIT (R151). A name frame's update starts at U with a 1,200 E-cycle bearing fit and Doppler measurement.
  -/
  | bearingFit
  /-- DIRECTORY_STEP (R136). The directory step looks up, updates or inserts the name with displacements and queues
  its sighting record. -/
  | directoryStep (ecc : List (Nat × EccErr))
  /-- ACTION_RECORD (R147). After an ACTION exchange and the name's directory update, an action record is queued to
  the owning host. -/
  | actionRecord (q : Quad)
  /-- DIR_SCRUB (R142). In each idle directory cycle the scrub reads one bucket, correcting or emptying on ECC errors.
  -/
  | dirScrub (bucket : Nat) (err : EccErr)
  /-- SCAN_UNIT_QUEUE (R399). A scan's unit is queued one E-cycle after the scan reads the last item it holds. -/
  | scanUnitQueue
  /-- MIDWAY_CLOCKED_DELIVERY (R423). A channel with CLOCKED set delivers its triggers one E-cycle after it fired. -/
  | midwayClockedDelivery (c : Channel)
  /-- DLY_DONE (R433). A Midway delay reaches the end of its count and fires DONE. -/
  | dlyDone (d : DelayNo)
  /-- MW_IN_EDGE (R437). A level change on MW_INn fires its rise or fall event 3 E-cycles after it is sampled. -/
  | mwInEdge (n : BallNo) (level : Bool)
  /-- FIELD_CUT (R436). FIELD_CUT_Tq cuts a quad unshaped, returning the token to FREE and ending its commands with
  FIELD_LOST when the cut completes. -/
  | fieldCut (q : Quad)
  /-- CNT_SAT (R60). The E-cycle after an event counter saturates, event CNT_SAT fires once. -/
  | cntSat
  /-- TB_WRAP (R52). TB_NOW wraps to 0, TB_EPOCH increments, WRAPPED sets and TB_WRAP fires. -/
  | tbWrap
  /-- MP_BUS_GRANT (R447). The memory bus is granted to the next waiting transfer, exit sequence or line fill. -/
  | mpBusGrant
  /-- MREADY_TIMEOUT (R445). MREADY low for 100 µs at one boundary makes the port clock on and set MRDY_TO. -/
  | mreadyTimeout
  /-- MP_TRANSFER_END (R444). A memory transfer ends when its chip select rises and the bus becomes free. -/
  | mpTransferEnd (miso : List Word)
  /-- LINE_FILL_END (R449). A line fill ends, the line becomes valid and a speculative fill of the next line may
  start. -/
  | lineFillEnd (data : List Byte)
  /-- XIP_READ (R449). An engine read of the XIP window completes from a held line or after a demand fill. -/
  | xipRead (e : Engine)
  /-- PATCH_SWAP_EXECUTE (R402). Once no quad is inside a round, the patch banks swap over 64 E-cycles and held rounds
  start. -/
  | patchSwapExecute
  /-- JOURNAL_ROW_COMPLETE (R487). A journal row's programming completes and the new setting takes effect, cutting
  fields that breach it. -/
  | journalRowComplete
  /-- WATCHDOG_TIMEOUT (R479). A sequencer waiting 50 ms on an internal condition takes its bounded exit with
  INTERNAL. -/
  | watchdogTimeout (w : Watched)
  /-- POWER_ON (R467). Supplies come up and the power-on detector holds the device in reset until all are in range. -/
  | powerOn (core an drv io : Nat)
  /-- SUPPLY_TRIP (R497). A supply below its trip level for 1 µs causes a full reset recorded as power-on. -/
  | supplyTrip (x : Supply) (mv ns : Nat)
  /-- RESETN (R467). A low pulse on RESETn of 1 µs or longer causes a full reset held while RESETn stays low. -/
  | resetn (ns : Nat)
  /-- REFCLK_LOSS (R50). Loss of root PLL lock or of REFCLK edges cuts all drivers within 2 µs and enters full reset.
  -/
  | refclkLoss
  /-- RESET_RELEASE (R470). At the end of reset the straps BOOT_SRC, HROLE1 and HROLE0 are sampled and the root PLL
  starts locking. -/
  | resetRelease (bootSrc : Bool) (hrole : BitVec 2)
  /-- ROOT_PLL_LOCK (R51). The root PLL locks and the timebase starts at 0 with fuse load and exit sequences. -/
  | rootPllLock
  /-- FUSE_LOAD (R488). At the end of the fuse load journal rows are classified and the settings in force applied. -/
  | fuseLoad
  /-- SCRUB_COMPLETE (R471). The boot scrub of the directory SRAM completes and either READY rises or the header fill
  is requested. -/
  | scrubComplete
  /-- BOOT_HEADER_CHECK (R473). The boot header is checked and its map applied, and the boot patch fills begin if one
  is named. -/
  | bootHeaderCheck
  /-- BOOT_PATCH_INSTALL (R474). The boot patch is checked and installed in bank 0, or rejected. -/
  | bootPatchInstall
  /-- READY_RISE (R476). All HPn_READY balls rise together and the device is in its defined start state. -/
  | readyRise
  /-- CAL_TABLE_LOAD (R477). At READY + 1 the calibration table loader starts reading records through the XIP window.
  -/
  | calTableLoad
  /-- T_TICK (R51). At each CLK_T edge after the first, TB_NOW advances by one T-tick. -/
  | tTick
  /-- NOISE_PHASE_START (R157). 12.0 µs after frame end the receiver leaves its settle phase and the noise estimator
  starts measuring the floor. -/
  | noisePhaseStart (q : Quad)
  /-- RAMP_DOWN_COMPLETE (R217). A shaped ramp-down ordered without a command, for a field cut by a new ceiling or
  region plan or a port cut by FAULT_CUT, ends with drivers disabled, the token to FREE and FIELD_DOWN where the field
  goes off. -/
  | rampDownComplete (q : Quad)
  /-- MREADY_RESUME (R445). MREADY sampled high after a stretch makes the memory port resume clocking 2 E-cycles
  later. -/
  | mreadyResume (high : Bool)
  /-- WORD_0_COMPLETE (R335). When word 0 of a command frame is clocked in, the port fixes its announcement and
  releases the held units. -/
  | word0Complete (h : HostPort) (w0 : Word)
  /-- RX_RETRY_WAIT_EXPIRY (R304). 60 s after a receive-calibration failure the Juggler's retry wait ends and a
  receive sequence may start in a gap already open. -/
  | rxRetryWaitExpiry (q : Quad)
  deriving DecidableEq, Repr

end Sys2Proof
end

