-- ==== Sys2Proof/Decode.lean ====
section
/-! DEFINITION. The decoder the host asks for. No row of spec/opcode_table.json gives bits (every row's "fields" is
empty), so no word spells a command. Host frames are judged by COMMAND_FRAME (R326), not here. -/

namespace Sys2Proof

/-- The command a word spells by the table's bits: none, for any word, since the table gives no row any bits. -/
def decodeTableWord (_nbits _w : Nat) : Option Instr := none

end Sys2Proof
end

