-- ==== Sys2Proof/Machine/Bits.lean ====
section
/-! DEFINITION. Bit fields of words, sign extension, bit strings and the CRC fold every CRC of the spec uses. -/

namespace Sys2Proof.Machine

/-- The bits from `lo` to `hi` of a word, as a number. -/
def fld (w : Word) (hi lo : Nat) : Nat := (w.toNat >>> lo) % 2 ^ (hi + 1 - lo)

/-- A field of `n` bits at `lo`: the word that holds value `v` there and 0 elsewhere. -/
def put (lo n v : Nat) : Word := BitVec.ofNat 32 ((v % 2 ^ n) <<< lo)

/-- A word of ones from `lo` to `hi`. -/
def ones (hi lo : Nat) : Word := BitVec.ofNat 32 ((2 ^ (hi + 1 - lo) - 1) <<< lo)

/-- The word with the field from `lo` to `hi` replaced. -/
def setFld (w : Word) (hi lo v : Nat) : Word := (w &&& ~~~ ones hi lo) ||| put lo (hi + 1 - lo) v

/-- One bit of a word. -/
def bitAt (w : Word) (i : Nat) : Bool := w.getLsbD i

/-- The word with one bit replaced. -/
def setBit (w : Word) (i : Nat) (b : Bool) : Word := if b then w ||| put i 1 1 else w &&& ~~~ put i 1 1

/-- 0 or 1. -/
def b2n (b : Bool) : Nat := if b then 1 else 0

/-- A number of `n` bits read as two's complement. -/
def sext (n v : Nat) : Int := if v % 2 ^ n < 2 ^ (n - 1) then (v % 2 ^ n : Nat) else ((v % 2 ^ n : Nat) : Int) - (2 ^ n : Nat)

/-- An integer in `n` bits of two's complement. -/
def toBits (n : Nat) (v : Int) : Nat := (v % (2 ^ n : Nat)).toNat

/-- The bits of a number, most significant first (R16). -/
def bitsMsb : Nat → Nat → List Bool
  | 0, _ => []
  | n + 1, v => v.testBit n :: bitsMsb n v

/-- The number a bit string spells, first bit most significant (R16). -/
def natOfBits (bs : List Bool) : Nat := bs.foldl (fun a b => 2 * a + b2n b) 0

/-- The bits of words, first word first, bit 31 first. -/
def wordsBits (ws : List Word) : List Bool := ws.flatMap (fun w => bitsMsb 32 w.toNat)

/-- Bits packed into words, first bit in bit 31; unused low bits are 0. `n` bounds the number of words. -/
def packBits : Nat → List Bool → List Word
  | 0, _ => []
  | n + 1, bs =>
    if bs.isEmpty then [] else
      BitVec.ofNat 32 (natOfBits ((bs.take 32) ++ List.replicate (32 - (bs.take 32).length) false)) ::
        packBits n (bs.drop 32)

/-- One bit folded into a CRC of width `w` (R455). -/
def crcStep (w poly run : Nat) (b : Bool) : Nat :=
  let top := run.testBit (w - 1) != b
  let r := (run * 2) % 2 ^ w
  if top then r ^^^ (poly % 2 ^ w) else r

/-- Bits folded into a CRC in the order given (R455). -/
def crcFold (w poly run : Nat) (bs : List Bool) : Nat := bs.foldl (crcStep w poly) run

/-- The CRC-32 of the host frames, of units and of flash images (R325). -/
def crc32 (bs : List Bool) : Nat := crcFold 32 0x04C11DB7 0xFFFFFFFF bs

/-- The CRC-32 over words (R325, R333). -/
def crcWords (ws : List Word) : Word := BitVec.ofNat 32 (crc32 (wordsBits ws))

/-- The number of ones in the low `n` bits. -/
def popCount : Nat → Nat → Nat
  | 0, _ => 0
  | n + 1, v => b2n (v.testBit n) + popCount n v

/-- The numbers below `n` whose bit is set in a mask, ascending. -/
def maskList (n m : Nat) : List Nat := (List.range n).filter (fun i => m.testBit i)

/-- The two 16-bit halves of a word, high half first. -/
def halves (w : Word) : List (BitVec 16) := [BitVec.ofNat 16 (fld w 31 16), BitVec.ofNat 16 (fld w 15 0)]

/-- 16-bit values packed two to a word, the first in [31:16] (R392). `n` bounds the number of words. -/
def packHalves : Nat → List (BitVec 16) → List Word
  | 0, _ => []
  | _ + 1, [] => []
  | _ + 1, [a] => [put 16 16 a.toNat]
  | n + 1, a :: b :: t => (put 16 16 a.toNat ||| put 0 16 b.toNat) :: packHalves n t

/-- A word of four bytes, most significant first. -/
def wordOfBytes : List Byte → Word
  | a :: b :: c :: d :: _ =>
    put 24 8 a.toNat ||| put 16 8 b.toNat ||| put 8 8 c.toNat ||| put 0 8 d.toNat
  | _ => 0xFFFFFFFF

/-- The bits of bytes, most significant first. -/
def bytesBits (bs : List Byte) : List Bool := bs.flatMap (fun b => bitsMsb 8 b.toNat)

/-- Saturation at a largest value. -/
def satTo (m v : Nat) : Nat := if m < v then m else v

end Sys2Proof.Machine
end

