-- ==== Sys2Proof/Machine/Signal.lean ====
section
/-! DEFINITION. The arithmetic of the receive chain and of the bearing engine: complex integers, power ratios in dB
(R158), angles and decibels in fixed point. The spec gives these computations in real arithmetic; ratios are compared
exactly, and sine, cosine, arctangent and powers of ten are carried to 2^-40 (log entry 61). -/

namespace Sys2Proof

namespace Cx

/-- Zero. -/
def zero : Cx := { re := 0, im := 0 }

/-- Sum, difference and product. -/
def add (a b : Cx) : Cx := { re := a.re + b.re, im := a.im + b.im }
def sub (a b : Cx) : Cx := { re := a.re - b.re, im := a.im - b.im }
def mul (a b : Cx) : Cx := { re := a.re * b.re - a.im * b.im, im := a.re * b.im + a.im * b.re }

/-- Complex conjugate. -/
def conj (a : Cx) : Cx := { re := a.re, im := -a.im }

/-- The product with an integer. -/
def smul (n : Int) (a : Cx) : Cx := { re := n * a.re, im := n * a.im }

/-- The energy of a value. -/
def energy (a : Cx) : Nat := (a.re * a.re + a.im * a.im).toNat

/-- The sum of a list. -/
def sum (l : List Cx) : Cx := l.foldl add zero

end Cx

namespace Machine

/-- The quotient rounded to the nearest integer, upwards at a tie; the divisor is positive. -/
def rdiv (a b : Int) : Int := (2 * a + b) / (2 * b)

/-- A number held between limits. -/
def clampTo (lo hi v : Int) : Int := max lo (min hi v)

/-- A power ratio, the first number over the second. -/
structure Ratio where
  num : Nat
  den : Nat
  deriving DecidableEq, Repr

/-- The ratio stands at `k` steps or above, `n` steps to the dB: 10^k ≤ (num / den)^(10 n), compared exactly. -/
def Ratio.atStep (r : Ratio) (n : Nat) (k : Int) : Bool :=
  decide (10 ^ k.toNat * r.den ^ (10 * n) ≤ 10 ^ (-k).toNat * r.num ^ (10 * n))

/-- The ratio stands at `m` dB or above. -/
def Ratio.atLeast (r : Ratio) (m : Int) : Bool := r.atStep 1 m

/-- The ratio exceeds `m` dB. -/
def Ratio.exceeds (r : Ratio) (m : Int) : Bool :=
  decide (10 ^ m.toNat * r.den ^ 10 < 10 ^ (-m).toNat * r.num ^ 10)

/-- The quotient of two ratios. -/
def Ratio.over (a b : Ratio) : Ratio := { num := a.num * b.den, den := a.den * b.num }

/-- The sum of two ratios. -/
def Ratio.plus (a b : Ratio) : Ratio := { num := a.num * b.den + b.num * a.den, den := a.den * b.den }

/-- The greatest of a list of ratios; 0 for none. -/
def Ratio.greatest (l : List Ratio) : Ratio :=
  l.foldl (fun a b => if a.num * b.den < b.num * a.den then b else a) { num := 0, den := 1 }

/-- The largest whole number in a range for which a falling test holds, by bisection of `n` steps: it holds at `lo`. -/
def bisect (f : Int → Bool) : Nat → Int → Int → Int
  | 0, lo, _ => lo
  | n + 1, lo, hi => let m := (lo + hi) / 2; if f m then bisect f n m hi else bisect f n lo m

/-- A ratio in steps, `n` to the dB, rounded down and held at -400 and +400 dB. -/
def Ratio.inSteps (r : Ratio) (n : Nat) : Int :=
  let m : Int := 400 * n
  if r.atStep n (-m) then bisect (r.atStep n) 14 (-m) (m + 1) else -m

/-- A number held in a byte. -/
def byteOf (v : Int) : Nat := (max 0 (min 255 v)).toNat

/-- One turn. -/
def turn : Int := 1099511627776

/-- The arctangents of 2^-i in 2^-40 turn. -/
def atanTable : List Int :=
  [137438953472, 81134951838, 42869480287, 21761217566, 10922836750, 5466743129, 2734038620, 1367102738, 683561799,
   341782203, 170891265, 85445653, 42722829, 21361415, 10680707, 5340354, 2670177, 1335088, 667544, 333772, 166886, 83443,
   41722, 20861, 10430, 5215, 2608, 1304, 652, 326, 163, 81, 41, 20, 10, 5, 3, 1, 1]

/-- A vector rotated until the angle left is 0: the vector, by the table's steps. -/
def rotateBy : List Int → Nat → Int → Int → Int → Int × Int
  | [], _, x, y, _ => (x, y)
  | a :: t, i, x, y, z =>
    let d : Int := ((2 ^ i : Nat) : Int)
    if 0 ≤ z then rotateBy t (i + 1) (x - y / d) (y + x / d) (z - a) else rotateBy t (i + 1) (x + y / d) (y - x / d) (z + a)

/-- A vector rotated onto the axis: the angle it had, by the table's steps. -/
def angleBy : List Int → Nat → Int → Int → Int → Int
  | [], _, _, _, z => z
  | a :: t, i, x, y, z =>
    let d : Int := ((2 ^ i : Nat) : Int)
    if y < 0 then angleBy t (i + 1) (x - y / d) (y + x / d) (z - a) else angleBy t (i + 1) (x + y / d) (y - x / d) (z + a)

/-- An angle taken into -1/2 turn to +1/2 turn. -/
def wrapTurn (a : Int) : Int := (a + turn / 2) % turn - turn / 2

/-- Cosine and sine of an angle, in 2^-48. -/
def cosSin (a : Int) : Int × Int :=
  let w := wrapTurn a
  let k : Int := 170926505739102
  if w < -(turn / 4) then (let r := rotateBy atanTable 0 k 0 (w + turn / 2); (-r.1, -r.2))
  else if turn / 4 < w then (let r := rotateBy atanTable 0 k 0 (w - turn / 2); (-r.1, -r.2))
  else rotateBy atanTable 0 k 0 w

/-- The angle of a complex value, in 2^-40 turn; 0 for zero. -/
def angleOf (c : Cx) : Int :=
  let x := c.re * 1099511627776
  let y := c.im * 1099511627776
  if c.re = 0 ∧ c.im = 0 then 0
  else if x < 0 then wrapTurn (angleBy atanTable 0 (-x) (-y) 0 + turn / 2)
  else wrapTurn (angleBy atanTable 0 x y 0)

/-- A complex value rotated by an angle. -/
def rotated (c : Cx) (a : Int) : Cx :=
  let r := cosSin a
  let n : Int := 281474976710656
  { re := rdiv (c.re * r.1 - c.im * r.2) n, im := rdiv (c.re * r.2 + c.im * r.1) n }

/-- The terms of the exponential series, in 2^-60. -/
def expTerms : Nat → Nat → Int → Int → Int
  | 0, _, _, _ => 0
  | n + 1, k, t, y => t + expTerms n (k + 1) (t * y / ((k * 1152921504606846976 : Nat) : Int)) y

/-- The amplitude ratio of a gain in 0.001 dB, in 2^-60: 10^(g / 20,000). -/
def ampOf (g : Int) : Int := expTerms 60 1 1152921504606846976 (g * 132734993495000)

/-- A complex value under a gain in 0.001 dB and a phase in 0.01° (R305, R309). -/
def corrected (c : Cx) (ph gn : Int) : Cx :=
  let a := ampOf gn
  let n : Int := 1152921504606846976
  rotated { re := rdiv (c.re * a) n, im := rdiv (c.im * a) n } (rdiv (ph * turn) 36000)

end Machine

end Sys2Proof
end

