-- ==== Sys2Proof/Machine/Bearing.lean ====
section
/-! DEFINITION. The bearing fit of R151 on fixed-point angles: grid search, ambiguity, three Gauss-Newton steps, and the
rounding of R152 (log entries 61 and 67). -/

namespace Sys2Proof.Machine

/-- A port's part in a fit: position in 0.1 mm, and amplitude. -/
structure FitPort where
  x : Int
  y : Int
  z : Int
  a : Cx
  deriving DecidableEq, Repr

/-- A point of the search grid, with its steered power. -/
structure Peak where
  az : Int
  el : Int
  power : Nat
  deriving DecidableEq, Repr

/-- The unit direction of an azimuth and elevation in 2^-40 turn, its components in 2^-48: azimuth from +y towards +x,
elevation towards +z (R149). -/
def unitOf (az el : Int) : Int × Int × Int :=
  let a := cosSin az
  let e := cosSin el
  let n : Int := 281474976710656
  (rdiv (e.1 * a.2) n, rdiv (e.1 * a.1) n, e.2)

/-- The phase (u · r) / λ in 2^-40 turn for a carrier of `freq` × 23.4375 Hz (R151, R190). -/
def pathPhase (freq : Nat) (u : Int × Int × Int) (p : FitPort) : Int :=
  rdiv ((u.1 * p.x + u.2.1 * p.y + u.2.2 * p.z) * ((freq * 375 : Nat) : Int)) (256 * 47966793280000)

/-- Σ a_i exp(-j 2π (u · r_i) / λ) (R151). -/
def steered (freq : Nat) (u : Int × Int × Int) (l : List FitPort) : Cx :=
  Cx.sum (l.map (fun p => rotated p.a (-(pathPhase freq u p))))

/-- A whole number of degrees as an angle. -/
def degrees (d : Int) : Int := rdiv (d * turn) 360

/-- `n` numbers from `lo` in steps of `k`. -/
def steppedFrom (lo k : Int) (n : Nat) : List Int := (List.range n).map (fun (i : Nat) => lo + (i : Int) * k)

/-- Azimuths and elevations of the grid of a class, in degrees (R150, R151). -/
def gridAz (c : Nat) : List Int := if c = 3 then steppedFrom (-180) 1 360 else steppedFrom (-90) 1 181
def gridEl (c : Nat) : List Int := if c = 1 then [0] else steppedFrom (-90) 2 91

/-- The grid: a row of azimuths for each elevation (R151). -/
def gridOf (freq c : Nat) (l : List FitPort) : List (List Peak) :=
  (gridEl c).map (fun e => (gridAz c).map (fun a =>
    let az := degrees a
    let el := degrees e
    { az := az, el := el, power := (steered freq (unitOf az el) l).energy }))

/-- The highest of a list of grid points; of equals the first. -/
def highest (l : List Peak) : Option Peak :=
  match l with
  | [] => none
  | a :: t => some (t.foldl (fun x y => if x.power < y.power then y else x) a)

/-- The greatest of each value and its two neighbours in a row; `wrap` joins the ends. -/
def rowMax (wrap : Bool) (r : List Nat) : List Nat :=
  let first := if wrap then r.getLast?.getD 0 else 0
  let last := if wrap then r.head?.getD 0 else 0
  List.zipWith max r (List.zipWith max (first :: r) (r.drop 1 ++ [last]))

/-- The points of a grid that no neighbour exceeds, of the eight around it (R151; log entry 67). `above` is the row
before. -/
def localMaxima (wrap : Bool) : List Nat → List (List Peak) → List Peak
  | _, [] => []
  | above, r :: t =>
    let own := rowMax wrap (r.map (·.power))
    let below := match t with
      | [] => r.map (fun _ => 0)
      | b :: _ => rowMax wrap (b.map (·.power))
    let lim := List.zipWith max own (List.zipWith max above below)
    ((List.zip r lim).filter (fun x => decide (x.2 ≤ x.1.power))).map (·.1) ++ localMaxima wrap own t

/-- Two directions lie more than 10° apart (R151). -/
def farApart (a b : Peak) : Bool :=
  let u := unitOf a.az a.el
  let v := unitOf b.az b.el
  decide (rdiv (u.1 * v.1 + u.2.1 * v.2.1 + u.2.2 * v.2.2) 281474976710656 < (cosSin (degrees 10)).1)

/-- AMBIG: another local maximum more than 10° away lies within `db` of the highest (R151). -/
def ambiguous (c db : Nat) (grid : List (List Peak)) (top : Peak) : Bool :=
  (localMaxima (c == 3) ((grid.headD []).map (fun _ => 0)) grid).any (fun p =>
    farApart p top && ({ num := p.power, den := top.power } : Ratio).atLeast (-(db : Int)))

/-- The derivatives of the direction by azimuth and by elevation, a radian each, in 2^-48. -/
def unitByAz (az el : Int) : Int × Int × Int :=
  let u := unitOf az el
  (u.2.1, -u.1, 0)
def unitByEl (az el : Int) : Int × Int × Int :=
  let a := cosSin az
  let e := cosSin el
  let n : Int := 281474976710656
  (-(rdiv (e.2 * a.2) n), -(rdiv (e.2 * a.1) n), e.1)

/-- One port's row of the weighted least squares: weight, residual in 2^-40 turn, and the derivatives of its phase by
azimuth and by elevation, in 2^-40 turn a radian. -/
structure FitRow where
  w : Int
  r : Int
  ja : Int
  je : Int
  deriving DecidableEq, Repr

/-- The rows at a direction, with residuals from `ph` wrapped to ±1/2 turn (R151). -/
def fitRows (freq : Nat) (az el ph : Int) (l : List FitPort) : List FitRow :=
  let u := unitOf az el
  let a := unitByAz az el
  let e := unitByEl az el
  l.map (fun p => { w := p.a.energy, r := wrapTurn (angleOf p.a - pathPhase freq u p - ph),
                    ja := pathPhase freq a p, je := pathPhase freq e p })

/-- A weighted sum over the rows. -/
def wsum (rows : List FitRow) (f : FitRow → Int) : Int := (rows.map (fun x => x.w * f x)).sum

/-- 2^40 / 2π: radians in 2^-40 turn. -/
def radian : Int := 174992724992

/-- One Gauss-Newton step from an azimuth, an elevation and a phase; `both`: the elevation takes part. Where the normal
equations have no solution nothing moves (R151; log entry 67). -/
def gaussNewton (freq : Nat) (both : Bool) (l : List FitPort) (x : Int × Int × Int) : Int × Int × Int :=
  let rows := fitRows freq x.1 x.2.1 x.2.2 l
  let w := wsum rows (fun _ => 1)
  let ca (r : FitRow) : Int := w * r.ja - wsum rows (·.ja)
  let ce (r : FitRow) : Int := w * r.je - wsum rows (·.je)
  let cr (r : FitRow) : Int := w * r.r - wsum rows (·.r)
  let aa := wsum rows (fun r => ca r * ca r)
  let ee := wsum rows (fun r => ce r * ce r)
  let ae := wsum rows (fun r => ca r * ce r)
  let ar := wsum rows (fun r => ca r * cr r)
  let er := wsum rows (fun r => ce r * cr r)
  let det := if both then aa * ee - ae * ae else aa
  if det ≤ 0 ∨ w ≤ 0 then x
  else
    let da := if both then rdiv ((ar * ee - er * ae) * radian) det else rdiv (ar * radian) det
    let de := if both then rdiv ((er * aa - ar * ae) * radian) det else 0
    let dp := rdiv (wsum rows (·.r) * radian - wsum rows (·.ja) * da - wsum rows (·.je) * de) (w * radian)
    (wrapTurn (x.1 + da), clampTo (-(turn / 4)) (turn / 4) (x.2.1 + de), x.2.2 + dp)

/-- An angle in 0.01°, to the nearest (R152). -/
def centiDegrees (a : Int) : Int := rdiv (a * 36000) turn

/-- The fit of R151 in a class: azimuth and elevation in 0.01° (R152), and AMBIG. -/
def bearingFit (c freq db : Nat) (l : List FitPort) : Int × Int × Bool :=
  let grid := gridOf freq c l
  match highest grid.flatten with
  | none => (0, 0, false)
  | some t =>
    let ph := angleOf (steered freq (unitOf t.az t.el) l)
    let go := gaussNewton freq (c != 1) l
    let x := go (go (go (t.az, t.el, ph)))
    (centiDegrees x.1, centiDegrees x.2.1, ambiguous c db grid t)

end Sys2Proof.Machine
end

