-- ==== Sys2Proof/Config.lean ====
section
/-! DEFINITION. What an implementation fixes: the three variants (R1), the counts in E-cycles the spec gives, and the
values the spec leaves open, each an opaque constant without a body (the assumption log names every one). -/

namespace Sys2Proof

/-- The three variants cut from the die (R1). -/
inductive Variant where
  | cx1664
  | cx0832
  | cx0416
  deriving DecidableEq, Repr

namespace Config

/-- Aerial ports of a variant (R1). -/
def ports : Variant → Nat
  | .cx1664 => 16
  | .cx0832 => 8
  | .cx0416 => 4

/-- Quads of a variant (R1). -/
def quads : Variant → Nat
  | .cx1664 => 4
  | .cx0832 => 2
  | .cx0416 => 1

/-- The bearing engine, the coherent ring and Barker are present on the two larger variants (R1). -/
def hasBearing : Variant → Bool
  | .cx0416 => false
  | _ => true

/-- Commands in flight, device limit (R1). -/
def deviceLimit : Variant → Nat
  | .cx1664 => 64
  | .cx0832 => 32
  | .cx0416 => 16

/-- Directory bucket count NB (R131). -/
def buckets : Variant → Nat
  | .cx1664 => 65536
  | .cx0832 => 16384
  | .cx0416 => 4096

/-- ID_PART (R4). -/
def part : Variant → Word
  | .cx1664 => 0x00001664
  | .cx0832 => 0x00000832
  | .cx0416 => 0x00000416

/-- Free value: CU_RUN of a bound unit in an E-cycle of a frame, for a port and the running value over the bits known to have
been clocked: the bits that followed reach the model only when word 0 is complete and at the rise of SELn (R454; log entry
11). -/
opaque boundRun : Nat → Nat → BitVec 32 → BitVec 32

/-- Free value: whether a RESETn pulse of 100 ns to 1 µs, or a supply dip below 1 µs, resets the device
(R467, R497; log entry 5). Applied to the model's free counter. -/
opaque shortPulseResets : Nat → Bool

/-- Free value: whether a level that MW_IN shows for one E-cycle only is missed (R437; log entry 94). Applied to the model's
free counter. -/
opaque shortLevelMissed : Nat → Bool

/-- Free value: which bits of the stage in progress have been programmed when a full reset falls during a journal row's
programming; their order within a stage is not stated (R487, R489; log entry 6). -/
opaque journalBits : Nat → BitVec 32

/-- Free value: the checker's verdict where the exact EIRP lies within the 0.001 dB error R215 allows it
(log entry 7). Applied to the model's free counter and the levels judged. -/
opaque ceilingEdge : Nat → List Int → Bool

/-- Free value: the built-in nominal power code of a temperature set (0 to 4) and INDEX (0 to 127). They are fixed in
the die's mask and the spec does not list them (R311; log entry 8). -/
opaque nominalCode : Nat → Nat → BitVec 16

/-- Free value: the proportional and integral gains, in 2^-16, of the second-order carrier loop and of the timing loop for a
tracking bandwidth; the spec names the bandwidths and gives no number (R176, R177, R187; log entry 63). -/
opaque carrierGain : Nat → Int × Int
opaque timingGain : Nat → Int × Int

/-- Free value: the decimator's low-pass. One decimated sample of a port, from the block that began in an E-cycle, for a
decimation factor, its place in the block and the block's samples up to it; the spec gives the filter no coefficients (R155,
R156; log entry 89). -/
opaque lowPass : Nat → Nat → Nat → Nat → List Cx → Cx

/-- Free value: the fractional interpolator, from the samples around an instant and the instant's place between two of them in
1/16 of their distance; the spec gives its resolution and no kernel (R177; log entry 89). -/
opaque interpolated : Nat → List Cx → Cx

/-- Free value: the change of the RF canceller's weight for a loop step RFC_MU of 0 to 3 and a residual carrier; the spec
gives the steps no number (R226, R245; log entry 64). -/
opaque rfcStep : Nat → Int → Int → Int × Int

/-- Free value: the error of the self-jammer estimate in steps of 0.5 dB, less 3: R228 allows ±1.5 dB (log entry 64).
Applied to the model's free counter. -/
opaque jamError : Nat → Fin 7

/-- Free value: T1 maximum of ISO/IEC 18000-63 in E-cycles, for an RTcal, a TRcal and a DR of 64/3; the spec names the
standard and does not give the number (R279; log entry 21). -/
opaque isoT1Max : Nat → Nat → Bool → Nat

/-- Free value: T1 minimum of ISO/IEC 18000-63 in E-cycles, as T1 maximum (R279; log entry 21). -/
opaque isoT1Min : Nat → Nat → Bool → Nat

/-- Free value: the incident-channel drift reference that the factory stored for a port (R308; log entry 10). -/
opaque factoryDriftRef : Nat → BitVec 16

/-- Free value: E-cycles from the request that abandons a speculative fill to the rise of MCSn, at most 8 (R447; log entry
30). Applied to the model's free counter. -/
opaque abandonRise : Nat → Fin 9

/-- Free value: the quad temperature that a calibration before the sensor's first conversion records (R198, R295; log
entry 35). Applied to the model's free counter and to the quad. -/
opaque earlyTemp : Nat → Nat → BitVec 16

end Config

end Sys2Proof
end

