-- ==== Sys2Proof/Machine/State.lean ====
section
/-! DEFINITION. The state of the block as plain data: the register window as a sorted map against the reset words, and
beside it everything the spec gives the machine that no register holds. Each structure cites the rules it stands for. -/

namespace Sys2Proof.Machine

/-- The block has no fault of its own: the spec answers every wrong command with a reply status (R369), every error with
a sticky flag (R417), and its worst case is a full reset (R465). Nothing raises a fault. -/
inductive Fault where
  deriving DecidableEq, Repr

/-- Why a step can have no meaning. -/
inductive Refusal where
  /-- Raised only by an arm of `exec` whose command has no meaning yet; safe, since nothing is claimed of it. -/
  | notModelled (mnemonic : String)
  deriving DecidableEq, Repr

/-- A map from number to value as a sorted list; an unlisted number reads a default (see `mget`). -/
abbrev SMap (α : Type) := List (Nat × α)

/-- The state of a quad's field token (R31). -/
inductive Token where
  | free
  | control
  | barker
  | lost
  deriving DecidableEq, Repr

/-- The causes of a full reset, in SYS_RESET order (R417, R465). -/
inductive Cause where
  | powerOn
  | resetn
  | resetDevice
  | refclk
  deriving DecidableEq, Repr

/-- The range of VDD_IO that the I/O cells are configured for (R495). -/
inductive IoRange where
  | v1800
  | v3300
  deriving DecidableEq, Repr

/-- A supply as its monitor has it: the level in mV, and whether it has reached its release level since it last tripped
(R497). -/
structure Rail where
  mv : Nat
  up : Bool
  deriving DecidableEq, Repr

/-- The four supplies, and the range the I/O cells sensed and keep, none while VDD_IO is off (R495, R497). -/
structure SupplySt where
  core : Rail
  an : Rail
  drv : Rail
  io : Rail
  range : Option IoRange
  deriving DecidableEq, Repr

/-- How far reset and boot have come (R465, R470, R471). -/
inductive Stage where
  /-- In full reset; its cause has not ended. -/
  | held
  /-- Reset ended, straps sampled, root PLL locking (R47, R470). -/
  | released
  /-- Fuse load, E-cycles 0 to 4,096. -/
  | fuses
  /-- Scrub of the directory SRAM, to E-cycle 135,168. -/
  | scrub
  /-- Header fill requested (R471). -/
  | header
  /-- Header valid and a patch named: its lines are filling (R474). -/
  | patch
  /-- Nothing further to read: READY rises next (R475). -/
  | last
  /-- READY is high (R476). -/
  | ready
  deriving DecidableEq, Repr

/-- A unit waiting for or on MISO (R347, R348): its header fields and body. `queuedAt` is the E-cycle it was queued in
(REC_AGE, R338). -/
structure OutUnit where
  status : BitVec 8
  tag : BitVec 4
  alive : BitVec 4
  ukind : BitVec 4
  more : Bool
  order : Word
  body : List Word
  queuedAt : Nat
  deriving DecidableEq, Repr

/-- What the port keeps of its last committed command for a DUP unit (R330, R331): its stamp and header, whether it has
finished, the status it ended with, and the first unit of its reply if it produced one. -/
structure LastCmd where
  stamp : Word
  hdr : Word
  done : Bool
  status : BitVec 8
  first : Option OutUnit
  multi : Bool
  deriving DecidableEq, Repr

/-- The kind of a transaction (R322, R323). -/
inductive LinkKind where
  | frame
  | drain
  | replay
  deriving DecidableEq, Repr

/-- An announcement fixed at the end of word 0 (R334, R335, R336). -/
structure Announce where
  kind : LinkKind
  units : List OutUnit
  deriving DecidableEq, Repr

/-- One host port (R319 to R343), beside its registers. -/
structure HpSt where
  /-- A transaction is open: SELn is low (R322). -/
  sel : Bool
  /-- The words of MISO fixed so far in the transaction in progress: the status word as it stood at the falling edge of SELn,
  then the announcement and the announced units; zeros follow (R334). -/
  miso : List Word
  /-- The announcement of the transaction in progress (R335). -/
  ann : Option Announce
  /-- The held units (R336). -/
  held : List OutUnit
  /-- Units queued and not delivered, in the order they leave (R333). -/
  queue : List OutUnit
  /-- Updates held aside while an announced copy is on MISO (R336). -/
  aside : List OutUnit
  /-- Discards since the last link record was delivered (R328). -/
  discards : Nat
  /-- ALIVE_LAST, none while not valid (R330). -/
  aliveLast : Option (BitVec 4)
  last : Option LastCmd
  /-- The original of the repeat whose DUP unit is not queued yet (R331); `dupWait` while that original, committed, has not
  entered the Carousel. -/
  dupOf : Option LastCmd
  dupWait : Bool
  /-- HPn_READY (R337). -/
  ready : Bool
  /-- While a stretch lasts, the E-cycle by which it ends (R337). -/
  stretch : Option Nat
  /-- HPn_IRQn asserted (R338). -/
  irq : Bool
  /-- The IRQn condition as it last stood, and its changes that the ball has not followed yet, each with the E-cycle it fell
  in (R338). -/
  irqWas : Bool
  irqDue : List (Nat × Bool)
  /-- The bound CRC unit's value over the bits of the frame that are known to have been clocked, and the E-cycle as of which
  they are all of them (R325, R454). -/
  run : BitVec 32
  runAt : Nat
  deriving DecidableEq, Repr

/-- The executing units of R350. -/
inductive ExecUnit where
  | system
  | register
  | quad (q : Quad)
  | directory
  | memory
  | journal
  | patch
  deriving DecidableEq, Repr

/-- The effects a command still owes after its dispatch, each due in an E-cycle the slot names for it. -/
inductive Effect where
  /-- Nothing but the completion itself. -/
  | none
  /-- The checks made at dispatch + 24: ceiling and region, and where they pass the command's action or hold (R200, R208,
  R216, R253, R382, R385, R386). -/
  | check
  /-- LEASE: the quads become held (R361). -/
  | lease (quads : BitVec 4)
  /-- UNLEASE: the lease notices that wait behind no reply are queued at dispatch + 1 (R363). -/
  | notices
  /-- FIELD_OFF, UNLEASE: drivers disabled, tokens FREE, FIELD_DOWN (R208, R362). -/
  | fieldsOff (quads : BitVec 4)
  /-- The carrier comes on at the ports of a group that is enabled (R87, R194, R208). -/
  | carrierOn (q : Quad)
  /-- FIELD_ON completes with carrier at its level: FIELD_UP (R208, R429). -/
  | fieldUp (q : Quad)
  /-- REG_WRITE places its words; REG_MODIFY reads and writes in one E-cycle (R382, R410). -/
  | regWrite
  | regModify
  /-- SYNTH_SET applies FREQ and starts a band calibration or a lock (R194). -/
  | freqApply (q : Quad) (cal : Bool)
  /-- SYNTH_CAL starts its band calibration (R199). -/
  | calStart (q : Quad)
  /-- BEAM_LOAD writes one whole beam (R204, R386). -/
  | beamWrite
  /-- The ramps of ports whose enable changed have ended (R261). -/
  | rampEnd (q : Quad)
  /-- TUNE_PORT's search begins with the setting in use (R254). -/
  | tuneStart (p : Port)
  /-- TUNE_PORT's search ends and the best setting is written; with the field off the ramp down follows (R254, R255). -/
  | tuneEnd (p : Port) (meas : List TuneMeas) (off : Bool)
  /-- BARKER_ARM takes effect (R262). -/
  | barkerArm
  /-- RING_MODE changes the mode (R202). -/
  | ring (enter : Bool)
  /-- CAL_RUN RX begins its four steps, each with its measurements (R310). -/
  | calBegin (q : Quad) (meas : List (List PortCal))
  /-- CAL_RUN RX ends its step `n`, 0 to 3 for B, M, H and V (R303, R304). -/
  | calStep (q : Quad) (n : Nat) (meas : List PortCal)
  /-- CAL_RUN TXPH writes the transmit corrections (R307). -/
  | calTx (q : Quad) (meas : List PortCal)
  /-- CAL_LOAD_SET replaces the set in force (R311). -/
  | calLoad
  /-- RESET_DEVICE enters full reset (R379). -/
  | fullReset
  /-- MP_MAP's new map takes effect (R453). -/
  | mpMap
  /-- MP_XFER completes: the window's lines are invalidated (R452). -/
  | mpDone
  /-- DIR_LOAD places one of its names, past the errors its reads meet (R140, R142, R399). -/
  | loadName (i : Nat) (ecc : List (Nat × EccErr))
  /-- PATCH_LOAD judges the image it has read (R483). -/
  | patchDone
  /-- PATCH_SWAP's 64 E-cycles end: the banks have swapped and the held rounds start (R402, R484). -/
  | swap
  deriving DecidableEq, Repr

/-- What a command in flight waits for besides its owed effects. -/
inductive Await where
  | nothing
  /-- The end of a band calibration on its synthesiser (R194, R199). -/
  | calEnd
  /-- A declaration of lock (R193, R194, R199, R200). -/
  | lock
  /-- The relocks of RING_MODE's exit (R202). -/
  | relock
  /-- Its air exchanges (R374). -/
  | air
  /-- The memory bus (R446, R453). -/
  | bus
  /-- The programming of a journal row (R487). -/
  | row
  /-- The line fills of a patch image (R483). -/
  | fills
  /-- The end of every round in progress (R402). -/
  | rounds
  /-- The end of a scan (R139). -/
  | scan
  deriving DecidableEq, Repr

/-- Where a command in flight stands (R354, R357). -/
inductive Phase where
  | waiting
  | executing
  | completed
  deriving DecidableEq, Repr

/-- The counters of a round sequence's summary (R389), each saturating at 32 bits. -/
structure Summary where
  firstRound : Option (BitVec 16)
  rounds : Nat
  tags : Nat
  nodes : Nat
  twins : Nat
  early : Nat
  dropouts : Nat
  failedActions : Nat
  failedInserts : Nat
  dwells : Nat
  deriving DecidableEq, Repr

/-- A command in flight: its frame, its place in the order and what it has come to (R324, R349, R351, R354, R371). -/
structure Slot where
  port : HostPort
  hdr : Word
  payload : List Word
  /-- Payload bits beyond the last whole word (R367). -/
  extra : Nat
  stamp : Word
  entryAt : Nat
  units : List ExecUnit
  phase : Phase
  /-- Refused because its TAG was in use (R345). -/
  tagRefused : Bool
  /-- Refused at dispatch (R346). -/
  refused : Bool
  /-- Nothing but its reply is still due: refused, ended by a later check, or paused at its end (R346, R358). -/
  ended : Bool
  dispAt : Nat
  /-- Effects still owed, each with its E-cycle, in time order. -/
  effs : List (Nat × Effect)
  waits : Await
  /-- The hold of R200 in progress: its first E-cycle. -/
  heldAt : Option Nat
  /-- Paused at a unit boundary on a full command queue (R358). -/
  paused : Bool
  /-- E-cycles of its wait that its watchdog has not counted: MREADY held the bus (R479). -/
  offWatch : Nat
  status : BitVec 8
  pword : BitVec 8
  wstep : BitVec 4
  code : BitVec 16
  waitE : Nat
  /-- The body after DETAIL (and after WAIT_E where R372 gives one). -/
  body : List Word
  /-- Bodies of earlier units of a reply that is split (R348, R372). -/
  early : List (List Word)
  /-- The first reply unit already queued, of a reply whose units leave one by one (R331, R399). -/
  firstSent : Option OutUnit
  /-- Whether WAIT_E follows DETAIL (R372). -/
  hasWait : Bool
  /-- The snapshot cut at completion, when SNAP asks for one (R365). -/
  snap : Option (List Word)
  doneAt : Nat
  /-- Round sequences of this command that still run, and how the others ended (R389). -/
  openSeqs : Nat
  ends : List (BitVec 8)
  sum : Summary
  deriving DecidableEq, Repr

/-- A committed frame on its way into the Carousel (R326, R349, R357). -/
structure Entering where
  port : HostPort
  hdr : Word
  payload : List Word
  extra : Nat
  commitAt : Nat
  turned : Bool
  deriving DecidableEq, Repr

/-- A command turned away: its reply is queued at entry + 2 (R357). -/
structure Turned where
  port : HostPort
  hdr : Word
  stamp : Word
  entryAt : Nat
  deriving DecidableEq, Repr

/-- A lease notice that waits for the replies of the commands the revocation ended, and for its first E-cycle, the one after
the revocation (R363). -/
structure Notice where
  dueAt : Nat
  port : HostPort
  by_ : HostPort
  quads : BitVec 4
  behind : List Word
  deriving DecidableEq, Repr

/-- A synthesiser (R193 to R200), beside its registers. -/
structure Syn where
  powered : Bool
  /-- Locking since this E-cycle (R193). -/
  lockFrom : Option Nat
  /-- Whether this lock attempt has already timed out (R193). -/
  timedOut : Bool
  /-- Band calibration running since this E-cycle (R198). -/
  calFrom : Option Nat
  /-- The lock attempt in progress is a relock that RING_MODE's exit waits for (R202). -/
  relock : Bool
  /-- Powered up by the Barker sequencer or by the Juggler for its own use (R197). -/
  barker : Bool
  juggler : Bool
  deriving DecidableEq, Repr

/-- What a forward frame's sender waits for (R83, R86). -/
inductive Expect where
  | none
  | bit
  /-- A frame reply whose window closes this many E-cycles after the frame end. -/
  | frame (close : Nat)
  deriving DecidableEq, Repr

/-- The phases of an exchange (R157). -/
inductive RxPhase where
  | blanked
  | settle
  | noise
  | hunt
  | finish
  /-- The finish phase has ended: no port has a frame left (R157). -/
  | past
  deriving DecidableEq, Repr

/-- Node outcomes of the bit-reply classifier (R163). -/
inductive BitOut where
  | none
  | one (b : Bool)
  | both
  deriving DecidableEq, Repr

/-- A port's verdict on a frame (R182, R185): when it was delivered, the E-cycle of the frame's sync, the ends of its pilots
as the port's timing has them, the tracked phase step a symbol in 2^-40 turn, and an ISO/IEC 18000-63 reply's link frequency
in Hz (R176, R181, R276). -/
structure Verdict where
  port : Port
  at_ : Nat
  sync : Nat
  ok : Bool
  rx : RxContent
  pilots : List Nat
  step : Int
  freq : Nat
  deriving DecidableEq, Repr

/-- A distinct valid frame of an exchange (R182), with its earliest sync, the port and level it was best received on, and
what its taps supply to the bearing engine (R181, R290). -/
structure VFrame where
  rx : RxContent
  sync : Nat
  best : Port
  rssi : Byte
  taps : List PilotMeas
  deriving DecidableEq, Repr

/-- The ISO link set a quad keeps (R394); times in E-cycles and ratios as R273 and R275 give them, `data1` and `pw` as
the codes of R395. -/
structure IsoLink where
  tari : Nat
  data1 : Nat
  pw : Nat
  dr643 : Bool
  blf : Nat
  coding : Nat
  trext : Bool
  session : Nat
  deriving DecidableEq, Repr

/-- The exchange a group has in progress (R157, R182, R374). -/
structure Exch where
  iso : Bool
  startAt : Nat
  /-- The frame-end reference (R65, R274). -/
  endAt : Nat
  /-- c (R156, R278). -/
  chip : Nat
  /-- The code set of the frame replies (R75), and the ISO/IEC 18000-63 link (R275). -/
  cs : Nat
  link : IsoLink
  /-- The bounds of the E-cycle, from the frame end, in which an ISO/IEC 18000-63 reply's first symbol may begin (R279). -/
  t1Min : Nat
  t1Max : Nat
  /-- The modulation depth in per cent and the full ramp in 1/40 E-cycle the frame is sent with (R206, R207, R273). -/
  depth : Nat
  ramp : Nat
  /-- An ISO/IEC 18000-63 reply here carries a CRC-16 (R278, R283). -/
  hasCrc : Bool
  expects : Expect
  /-- The KINDs the command allows (R174). -/
  kinds : List Nat
  phase : RxPhase
  /-- The no-reply deadline (R86, R279). -/
  deadline : Nat
  /-- The reference T2 counts from, so far (R84). -/
  refAt : Nat
  verdicts : List Verdict
  valid : List VFrame
  /-- The sync instants of the frames combined without being valid: none of them is abandoned (R181). -/
  failed : List Nat
  bit : Option BitOut
  /-- E0 and E1 of the classifier in whole dB, at most 255 (R393). -/
  e0 : Nat
  e1 : Nat
  /-- The outcome instant O, once known (R374). -/
  outAt : Option Nat
  deriving DecidableEq, Repr

/-- Per-tag steps and frames of the air machines: what the frame in progress (or next to send) is for. -/
inductive AirStep where
  /-- WAKE that opens a round (R97, R122). -/
  | wake
  /-- WAKE with REDRAW under a 24-bit prefix (R109). -/
  | redraw (pfx : List Bool)
  /-- A node of the walk whose prefix is the walk's, sent as WALK (true) or as an extension (R122). -/
  | node (asWalk : Bool)
  /-- An early SELECT of the node's prefix and next bit (R107, R126). -/
  | early (pfx : List Bool)
  /-- SELECT with MLEN = 32 (R106, R108, R125). -/
  | sel32 (ticket : List Bool)
  /-- READ or SENSE of the singulated tag (R127). -/
  | action
  /-- HALT of the singulated tag, n-th send (R127). -/
  | halt (n : Nat)
  /-- SELECT that opens ST_READ, ST_WRITE, ST_HALT and ST_SENSE, n-th send (R390). -/
  | reselect (n : Nat)
  /-- The single exchange of ST_READ and ST_SENSE (R392). -/
  | one
  /-- PREPARE and COMMIT of ST_WRITE, n-th send (R112). -/
  | prepare (n : Nat)
  | commit (n : Nat)
  /-- The frame of ST_RAW or G_RAW (R393, R397). -/
  | raw
  /-- ISO/IEC 18000-63 (R280, R282, R283, R288): the i-th Select, Query, a slot's QueryRep or QueryAdjust, ACK (n-th
  send), NAK, Req_RN, the parts of Access, the operation, the part of a Kill. -/
  | gSelect (i : Nat)
  | gQuery
  | gSlot (adjust : Option Bool)
  | gAck (n : Nat)
  | gNak
  /-- Req_RN: part 0 asks for the handle, parts 1 and 2 for the cover codes of Access, 3 and 4 for those of the
  operation. -/
  | gReqRn (part : Nat)
  | gAccess (half : Nat)
  | gOp (half : Nat)
  deriving DecidableEq, Repr

/-- Parameters of a Stamet round or command (R116, R388, R391, R392). -/
structure StPrm where
  tu : Nat
  cr : Nat
  cs : Nat
  all : Bool
  nsf : Bool
  action : Nat
  halt : Bool
  reportAll : Bool
  expect : Nat
  dwell : Nat
  addr : Nat
  cnt : Nat
  dsf : Bool
  chan : Nat
  data : BitVec 16
  deriving DecidableEq, Repr

/-- One Select block of G_INVENTORY (R282, R395). -/
structure SelBlock where
  target : Nat
  action : Nat
  bank : Nat
  pointer : Word
  length : Nat
  mask : List Word
  deriving DecidableEq, Repr

/-- Parameters of ISO/IEC 18000-63 rounds and commands (R282, R395 to R397). -/
structure IsoPrm where
  link : IsoLink
  sel : Nat
  target : Bool
  flip : Bool
  qInit : Nat
  reportAll : Bool
  action : Bool
  rbank : Nat
  rcnt : Nat
  rptr : Nat
  dwell : Nat
  selects : List SelBlock
  apwd : Word
  args : List Word
  rbits : Nat
  deriving DecidableEq, Repr

/-- How the node in hand was reached (R124): the root WALK, an extension or the WALK after a failed early SELECT, the
resend of a silent node, or the WALK of a popped prefix. -/
inductive NodeMode where
  | root
  | step
  | resent
  | popped
  deriving DecidableEq, Repr

/-- The walk of a round (R122 to R126). -/
structure Walk where
  /-- The node's prefix; its length is the depth. -/
  pfx : List Bool
  mode : NodeMode
  /-- Prefixes still to be walked, each with the depth below which it makes no early SELECT. -/
  stack : List (List Bool × Nat)
  floor : Nat
  /-- The ticket ending in 1 that waits for the one ending in 0 (R106). -/
  second : Option (List Bool)
  /-- SELECTs of the ticket in hand that drew no sync, and whether the last drew a sync with a failed CRC (R108, R125). -/
  silent : Nat
  crcPrev : Bool
  /-- Twins met under a 24-bit prefix, and whether a prefix was abandoned (R109). -/
  twins : List (List Bool × Nat)
  aband : Bool
  deriving DecidableEq, Repr

/-- Slot arithmetic of an ISO round (R284, R285): Q, Qfp in 1/16, slots completed since the last Query or QueryAdjust,
whether one of them was a collision. -/
structure Slots where
  q : Nat
  qfp : Nat
  done : Nat
  coll : Bool
  deriving DecidableEq, Repr

/-- The tag an air job acts on: its name, and the directory handle once its update is done (R147). -/
structure TagRef where
  name : Name
  handle : Option Nat
  quad : Nat
  deriving DecidableEq, Repr

/-- A Stamet selection (R390). -/
structure Selection where
  name : Name
  ticket : BitVec 32
  rid : BitVec 8
  st : StPrm
  deriving DecidableEq, Repr

/-- What a group is doing on the air: a round sequence or one air command (R116 to R128, R282 to R289, R390 to R397). -/
structure Job where
  stamp : Word
  hdr : Word
  host : HostPort
  opcode : Nat
  iso : Bool
  st : StPrm
  g : IsoPrm
  beams : List Nat
  beamIdx : Nat
  sweeps : Nat
  sweep : Nat
  /-- The name ST_SELECT seeks (R391), or the held name of a reselection (R390). -/
  want : Option Name
  ticket : BitVec 32
  rid : BitVec 8
  roundNo : BitVec 16
  inRound : Bool
  dwellAt : Option Nat
  dwellHit : Bool
  tagsRound : Nat
  step : AirStep
  walk : Walk
  slots : Slots
  rn16 : BitVec 16
  /-- What the RN16 preamble's taps gave for the slot in hand (R290). -/
  rnTaps : List PilotMeas
  /-- The handle and the cover code of an ISO tag (R280). -/
  handle : BitVec 16
  cover : BitVec 16
  /-- The NAK in hand makes its slot a collision (R283). -/
  nakColl : Bool
  tag : Option TagRef
  writeStep : Nat
  /-- The E-cycle in which the first symbol of the write of G_WRITE begins (R289). -/
  opAt : Option Nat
  target : Bool
  rawBits : List Bool
  rawCrc : Bool
  rawReply : Nat
  /-- A round of the sequence ended by DWELL (R121). -/
  cutShort : Bool
  /-- The link set and the selection its group had before the command, which a late refusal puts back (R216). -/
  oldLink : IsoLink
  oldSel : Option Selection
  deriving DecidableEq, Repr

/-- The next forward frame and the first E-cycle it may begin in (R374); or, with `past`, the end of the round in that
E-cycle (R121). `ref` is the reference of the last exchange (R84). -/
structure NextFrame where
  notBefore : Nat
  past : Bool
  ref : Nat
  deriving DecidableEq, Repr

/-- The Juggler on one quad (R296 to R304). -/
structure Jug where
  /-- Steps of the sequence completed, 0 to 4. -/
  steps : Nat
  seqAt : Nat
  stepFrom : Option Nat
  /-- The first E-cycle in which the retry wait of R304 has elapsed. -/
  retryAt : Nat
  /-- The gap open on the quad: 0 none, else 1 + the GAP code of R316. -/
  gap : Nat
  /-- The synthesiser was powered up for a receive step, not for a band calibration (R300). -/
  forStep : Bool
  /-- First E-cycle of the gap in progress. -/
  gapAt : Nat
  /-- The edge of the frame whose gap a command's dispatch has ended (R296). -/
  shut : Nat
  /-- Ports that failed in a step so far, and temperature at step H. -/
  bad : BitVec 16
  tempH : BitVec 16
  /-- A CAL_RUN runs on the group: a step in progress is its own (R310, R316). -/
  run : Bool
  /-- While a band calibration that the Juggler began, or the lock behind it, is not over: QUAD_SYN_CAL as it was (R300). -/
  calWas : Option Word
  deriving DecidableEq, Repr

/-- One quad (R23 to R41, R190 to R221), beside its registers. -/
structure QuadSt where
  holder : Option HostPort
  token : Token
  /-- The token's state before the FIELD_ON that claimed it (R208, R384). -/
  tokenWas : Token
  /-- E-cycle of the last refresh (R35). -/
  refreshAt : Nat
  /-- The field counts as on from this E-cycle (R208); none while off. -/
  field : Option Nat
  /-- E-cycle in which the carrier last came on at a port (R87). -/
  carrierAt : Nat
  /-- The ports that are enabled carry carrier: the field is on and not retuning (R194, R208, R221). -/
  carrier : Bool
  /-- A shaped ramp-down without a command, and the E-cycle it completes in (R217). -/
  rampAt : Option Nat
  /-- FIELD_CUT_T acted in this E-cycle; the cut has not completed (R436). -/
  cutFrom : Option Nat
  syn : Syn
  job : Option Job
  exch : Option Exch
  next : Option NextFrame
  sel : Option Selection
  link : IsoLink
  rid : BitVec 8
  lastRid : BitVec 8
  prevTags : Nat
  /-- First E-cycle in which the last exchange lets a start mark begin: T2, or T4 (R84, R85, R279). -/
  airAfter : Nat
  jug : Jug
  deriving DecidableEq, Repr

/-- A frame candidate of a Trapeze correlator (R165 to R172): its power P as a ratio to the noise floor, its timing, its
coarse carrier estimate in 2^-40 turn a symbol, the last E-cycle its sync may complete in (R166, R277), and, of an ISO/IEC
18000-63 reply, the link frequency measured in Hz (R276). -/
structure Cand where
  tz : Bool
  lockAt : Nat
  power : Ratio
  timing : Nat
  coarse : Int
  due : Nat
  freq : Nat
  sync : Option Nat
  syncTb : BitVec 48
  /-- Start of the chain's replay in progress (R173). -/
  replayAt : Nat
  deriving DecidableEq, Repr

/-- A Barker baseline held exactly: the complex value is (re, im) / 2^exp (R267, R268). -/
structure Gamma where
  re : Int
  im : Int
  exp : Nat
  deriving DecidableEq, Repr

/-- Decimated samples of one AGC block: the E-cycle it began in, and its samples, four a chip, at the scale of GAIN 30 (R155,
R156, R230). -/
structure RxBlock where
  from_ : Nat
  xs : List Cx
  deriving DecidableEq, Repr

/-- One aerial port, beside its registers. -/
structure PortSt where
  recv : Option Cand
  standby : Option Cand
  capt : Bool
  clip : Bool
  falseSeen : Bool
  crcFail : Bool
  valid : Bool
  ovld : Bool
  /-- The samples of the exchange, newest block first: its last 48 symbol periods are the capture buffer, and the chain has
taken what lies before them (R155, R173). -/
  buf : List RxBlock
  /-- The noise floor of the exchange: the mean energy of a 16-chip correlation, referred to RXIN at the scale of GAIN 30
(R158). -/
  noise : Ratio
  /-- The gain the port froze at in this exchange (R160, R305). -/
  frozenGain : Option Nat
  /-- The digital canceller's estimate of the residual carrier, in 2^-16 of a sample's step (R159). -/
  dsj : Cx
  /-- First E-cycles in which the AGC's next block can end and the RF canceller can update again (R160, R226). -/
  agcAt : Nat
  rfcAt : Nat
  /-- Consecutive canceller updates with the in-phase and with the quadrature weight at one limit (R228). -/
  rfcRunI : Nat
  rfcRunQ : Nat
  /-- The headroom cap held the gain below its target in the last AGC block (R231). -/
  hrHeld : Bool
  /-- The gain the AGC had before a receive step forced it (R302). -/
  gainSaved : Nat
  /-- Consecutive readings below FAULT_RL (R257) and beyond TX_DRIFT (R308). -/
  faultRun : Nat
  driftRun : Nat
  driftRef : BitVec 16
  /-- What the receive sequence in progress has measured so far: the corrections of B, M and H and the I/Q correction, which a
  port that passes takes over at the end of V (R303, R304). -/
  calB : Word
  calM : Word
  calH : Word
  calIq : Word
  /-- A port cut by FAULT_CUT whose ramp-down is running (R259): the E-cycle it completes in. -/
  rampAt : Option Nat
  /-- The E-cycle in which the ramp-down of a port that left its group's beam completes (R261); 0 none. -/
  downAt : Nat
  /-- First E-cycle in which the next detector reading can complete (R251). -/
  detAt : Nat
  /-- The tuner setting in use as the port's last search began (R254, R256). -/
  tuneFrom : Word
  base : Option Gamma
  /-- Start of the Barker slot in progress (R263), and the E-cycle in which a mask of zero began to ramp it down (R262). -/
  burst : Option Nat
  burstCut : Option Nat
  compared : Bool
  /-- One more than the start of the last slot the port took or skipped; 0 none (R265). -/
  slotNo : Nat
  deriving DecidableEq, Repr

/-- Barker as a whole (R262, R263). -/
structure BarkSt where
  armed : BitVec 16
  nextMask : Option (BitVec 16)
  owner : HostPort
  /-- Header of the last BARKER_ARM, which owns Barker records (R348). -/
  hdr : Word
  periodAt : Nat
  /-- Quads whose burst the control half displaced, until a period begins with their token FREE (R40). -/
  yielded : BitVec 4
  deriving DecidableEq, Repr

/-- A Midway event (R429). -/
inductive MwEvent where
  | bark (p : Port)
  | antFault (p : Port)
  | ringLost (q : Quad)
  | synUnlock (q : Quad)
  | fieldUp (q : Quad)
  | fieldDown (q : Quad)
  | roundStart (q : Quad)
  | roundEnd (q : Quad)
  | sight (q : Quad)
  | calDone (q : Quad)
  | calFail (q : Quad)
  | txphDrift (q : Quad)
  | tbWrap
  | dirFull
  | dirEcc
  | cntSat
  | dlyDone (k : DelayNo)
  | inRise (n : BallNo)
  | inFall (n : BallNo)
  deriving DecidableEq, Repr

/-- A Midway task input, in the order of the task numbers of R442. -/
inductive MwTask where
  | tbCapture
  | dlyStart (k : DelayNo)
  | dlyStop (k : DelayNo)
  | cntInc (k : DelayNo)
  | outSet (n : BallNo)
  | outClr (n : BallNo)
  | outTgl (n : BallNo)
  | fieldCut (q : Quad)
  deriving DecidableEq, Repr

/-- The Midway fabric, beside its registers (R421 to R442). -/
structure MwSt where
  /-- The E-cycle the three lists below belong to. -/
  eNow : Nat
  /-- Channels that fired in it (R422). -/
  fired : List Nat
  /-- Tasks triggered by a channel in it, and tasks triggered by a register in it (R424, R425). -/
  acted : List MwTask
  regActed : List MwTask
  /-- Clocked deliveries waiting: channel, its destinations, the E-cycle it fired in (R423). -/
  clocked : List (Nat × Nat × Nat)
  /-- End of each running delay (R433). -/
  delays : SMap Nat
  /-- Delays restarted in the E-cycle of their DONE, which still fires: that E-cycle (R433). -/
  ended : SMap Nat
  /-- Group enables before a group task changed them, and in which E-cycle (R428). -/
  grpOld : SMap (Nat × Bool)
  /-- A command's own row is making its changes: events it raises are judged when its E-cycle ends (R426). -/
  hold : Bool
  /-- The events raised in this E-cycle that are still to be judged (R426). -/
  raised : List MwEvent
  /-- Levels newly sampled at the inputs, oldest first: ball, level, and the first E-cycle that sampled it (R437). -/
  ins : List (Nat × Bool × Nat)
  /-- The E-cycle in which an output bit last changed, and the output bits before it (R437). -/
  outAt : Nat
  outWas : BitVec 4
  deriving DecidableEq, Repr

/-- Who asks for the memory bus (R447, R463). -/
inductive BusReq where
  | xfer (k : Word)
  | map (k : Word)
  | exit (cs : Bool)
  | demand (line : Nat)
  | spec (line : Nat)
  deriving DecidableEq, Repr

/-- One line of the prefetch buffer (R449). -/
structure Line where
  /-- Its place, 0 to 3, as MP_STAT.LINES numbers it. -/
  idx : Nat
  addr : Nat
  data : List Byte
  /-- The E-cycle its fill ended in. -/
  validAt : Nat
  deriving DecidableEq, Repr

/-- A read of the XIP window whose bytes are there: where it read, what, and the E-cycle its 6 E-cycles run from (R449). -/
structure XipHit where
  addr : Nat
  data : List Byte
  at_ : Nat
  deriving DecidableEq, Repr

/-- An engine's read cursor in the XIP window, its reads that complete, the bytes it holds and wants, and the E-cycle its
next read waits since (R448, R449). -/
structure EngSt where
  on : Bool
  addr : Nat
  hits : List XipHit
  bytes : List Byte
  want : Nat
  from_ : Nat
  /-- E-cycles of that wait in which MREADY held the bus (R479). -/
  off : Nat
  deriving DecidableEq, Repr

/-- The memory port, beside its registers (R443 to R453). -/
structure MpSt where
  owner : Option BusReq
  grantAt : Nat
  /-- The bits that MP_MOSI carries in the transfer; it is high for the rest (R444, R449). -/
  sent : List Bool
  /-- E-cycles the transfer has been stretched by (R445). -/
  stretch : Nat
  /-- The byte boundary since which MREADY is low (R445). -/
  low : Option Nat
  /-- MREADY is ignored for the rest of the transfer (R445). -/
  ignore : Bool
  /-- The abandoned fill whose MCSn has still to rise, by `freeAt` (R447). -/
  dropped : Option BusReq
  /-- Waiting requests, each with the E-cycle it arose in (R447). -/
  waiting : List (BusReq × Nat)
  /-- Held lines, least recently used first (R449). -/
  lines : List Line
  /-- First E-cycle in which the bus may be granted again (R444). -/
  freeAt : Nat
  boot : EngSt
  table : EngSt
  patch : EngSt
  /-- Calibration records read so far (R313). -/
  records : Nat
  deriving DecidableEq, Repr

/-- A patch image in a bank (R482). -/
structure Image where
  ident : BitVec 16
  len : Nat
  body : List Byte
  deriving DecidableEq, Repr

/-- The patch RAM (R481, R484). -/
structure PatchSt where
  bank0 : Option Image
  bank1 : Option Image
  active : Bool
  /-- PATCH_SWAP holds new rounds since this E-cycle (R402). -/
  hold : Option Nat
  /-- Slot of the PATCH_LOAD in progress. -/
  loader : Option Word
  deriving DecidableEq, Repr

/-- A journal row (R486). -/
structure JRow where
  w0 : Word
  w1 : Word
  w2 : Word
  w3 : Word
  deriving DecidableEq, Repr

/-- The row being programmed (R487). -/
structure Prog where
  row : Nat
  rec_ : JRow
  beginAt : Nat
  stamp : Word
  deriving DecidableEq, Repr

/-- The journalled settings in force and the fuses (R413, R485, R488). -/
structure FuseSt where
  variant : Variant
  serial : BitVec 48
  step : BitVec 4
  metal : BitVec 4
  txph : SMap (BitVec 12)
  rows : SMap JRow
  deriving DecidableEq, Repr

/-- A directory entry (R134, R135); an unlisted handle is empty. -/
structure Entry where
  name : Name
  flags : BitVec 16
  lastSeen : BitVec 48
  az : BitVec 16
  el : BitVec 16
  doppler : BitVec 16
  rssi : Byte
  bestPort : Byte
  seen : BitVec 16
  round : BitVec 16
  deriving DecidableEq, Repr

/-- A decoded name on its way into the directory (R136, R143, R148). -/
structure Sight where
  name : Name
  iso : Bool
  stamp : BitVec 48
  /-- Header of the owning command (R348). -/
  hdr : Word
  host : HostPort
  all : Bool
  job : Word
  /-- ROUND of the round; none takes the counter's value at the update (R390, R393). -/
  round : Option (BitVec 16)
  twin : Bool
  group : Quad
  best : Port
  rssi : Byte
  /-- The bearing inputs of the frame's taps (R181, R290). -/
  taps : List PilotMeas
  vAt : Nat
  doppler : Bool
  deriving DecidableEq, Repr

/-- The update in progress: its sighting, the end of its bearing fit, and the fit's results (R136, R151). -/
structure Upd where
  s : Sight
  fitEnd : Nat
  az : BitVec 16
  el : BitVec 16
  ambig : Bool
  dop : BitVec 16
  deriving DecidableEq, Repr

/-- A scan in progress (R139, R399): its command, the items of its cut that are not yet queued, each with the bucket it
stands in, how many a unit holds, its first E-cycle, and the E-cycles it has paused. -/
structure Scan where
  stamp : Word
  items : List (List Word × Nat)
  per : Nat
  beginAt : Nat
  paused : Nat
  /-- A pause on a full unit queue in progress, and its first E-cycle (R358). -/
  pauseFrom : Option Nat
  /-- Buckets evaluated out of order, ahead of a write (R139). -/
  early : List Nat
  /-- Errors its reads will find, by bucket (R142). -/
  ecc : List (Nat × EccErr)
  deriving DecidableEq, Repr

/-- An action record that waits for its name's directory update (R147). -/
structure ActRec where
  job : Word
  hdr : Word
  host : HostPort
  group : Quad
  iso : Bool
  sense : Bool
  status : BitVec 8
  code : BitVec 16
  name : Name
  round : BitVec 16
  data : List Word
  readyAt : Nat
  handle : Option Nat
  quad : Nat
  deriving DecidableEq, Repr

/-- What follows a directory step's write: the E-cycle in which the sighting record is queued or found not to be produced,
and the command it arose from (R136, R354; log entry 33). -/
structure RecDue where
  dueAt : Nat
  host : HostPort
  job : Word
  unit : Option OutUnit
  deriving DecidableEq, Repr

/-- The tag directory (R131 to R148). -/
structure DirSt where
  entries : SMap Entry
  evict : BitVec 2
  fifo : List Sight
  upd : Option Upd
  /-- First E-cycle in which the next update may start (R136). -/
  updFree : Nat
  /-- What follows the last step's write (R136). -/
  record : Option RecDue
  /-- First E-cycle after the last DIR_LOOKUP, DIR_CLEAR or DIR_LOAD in which a directory step may start (R138). -/
  freeAt : Nat
  scan : Option Scan
  /-- The last scan that has ended: a step in progress may have met it (R139). -/
  lastScan : Option Scan
  acts : List ActRec
  fulls : Nat
  eccEmptied : Nat
  maxDisp : Nat
  satFulls : Bool
  satEcc : Bool
  deriving DecidableEq, Repr

/-- A loaded POWER set (R209, R311): port, temperature set, source 1 flash or 2 host, 128 codes. -/
structure PowerSet where
  source : Nat
  codes : List (BitVec 16)
  deriving DecidableEq, Repr

/-- The timebase and its capture (R51 to R56). -/
structure TbSt where
  /-- Root PLL locked: the clocks run. -/
  run : Bool
  now : BitVec 48
  epoch : BitVec 8
  capNow : BitVec 48
  capEpoch : BitVec 8
  capPhase : BitVec 8
  /-- E-cycle of the last capture, and whether a task made it (R56). -/
  capAt : Option (Nat × Bool)
  deriving DecidableEq, Repr

/-- The latches of one access path (R55, R412). -/
structure Latch where
  tbNowHi : Word
  tbCapHi : Word
  serialHi : Word
  firedHi : Word
  coalHi : Word
  deriving DecidableEq, Repr

/-- The copy of the registers that reads see (R408): the words as an E-cycle began, with the accesses of commands in that
E-cycle; the read-only words that the rest of the state makes; the counters at their largest value that were to count once
more in it (R61); and the flags set in it, as bits of their words (R411). -/
structure RegCut where
  at_ : Nat
  regs : SMap Word
  made : SMap Word
  more : List Nat
  hot : SMap Word
  deriving DecidableEq, Repr

/-- The Carousel (R349 to R359). -/
structure CarSt where
  lastStamp : Word
  entering : List Entering
  slots : List Slot
  turned : List Turned
  notices : List Notice
  deriving DecidableEq, Repr

/-- Reset, boot and roles (R339, R419, R465 to R477). -/
structure BootSt where
  stage : Stage
  cause : Cause
  causeBy : HostPort
  bootSrc : Bool
  strap : BitVec 2
  primary : HostPort
  roleJournal : Bool
  region : Word
  ceiling : Word
  role : Word
  /-- E-cycle of the next boot action (R471). -/
  dueAt : Nat
  /-- Patch lines read and to read (R474). -/
  lines : Nat
  tableOff : Option Nat
  patchOff : Option Nat
  prog : Option Prog
  deriving DecidableEq, Repr

/-- The state of the block. -/
structure State where
  /-- The commands that wait, first in first out (this row's form). -/
  pending : List Instr
  /-- The register window: words that differ from their reset word (R405). -/
  regs : SMap Word
  /-- The values in use of the registers whose effect is deferred (R410). -/
  live : SMap Word
  /-- E-cycles since the timebase started (R49, R51). -/
  ecyc : Nat
  tb : TbSt
  latches : Vector Latch 4
  /-- The latches of the internal engines' access path (R55, R412); no command of the table reads through it. -/
  engLatch : Latch
  cut : RegCut
  /-- The word the last clearing read returned (R409). -/
  lastRead : Word
  /-- CNT_SAT events due in the E-cycle after these (R60). -/
  cntSat : List Nat
  /-- The event counters that have counted past their largest value since they were last cleared (R60). -/
  past : List Nat
  /-- The model's own counter behind its free values; no rule of the spec. -/
  free : Nat
  ports : Vector PortSt 16
  quads : Vector QuadSt 4
  ring : Bool
  hosts : Vector HpSt 4
  car : CarSt
  bark : BarkSt
  beams : SMap Word
  power : SMap PowerSet
  /-- Ports whose OFS set a host has loaded since reset (R477). -/
  ofsHost : BitVec 16
  roundCtr : BitVec 16
  /-- The ring's own RID counter and ISO link set (R119, R394). -/
  ringRid : BitVec 8
  ringLink : IsoLink
  mw : MwSt
  mp : MpSt
  patch : PatchSt
  fuse : FuseSt
  dir : DirSt
  boot : BootSt
  supply : SupplySt
  deriving DecidableEq, Repr

/-- A host port in full reset: READY low, IRQn high, nothing queued (R337, R338, R469). -/
def HpSt.reset : HpSt :=
  { sel := false, miso := [], ann := none, held := [], queue := [], aside := [], discards := 0,
    aliveLast := none, last := none, dupOf := none, dupWait := false, ready := false, stretch := none, irq := false,
    irqWas := false, irqDue := [], run := 0, runAt := 0 }

/-- A synthesiser after reset: powered down (R197). -/
def Syn.reset : Syn :=
  { powered := false, lockFrom := none, timedOut := false, calFrom := none, relock := false, barker := false, juggler := false }

/-- The ISO link set after reset (R394). -/
def IsoLink.reset : IsoLink :=
  { tari := 3072, data1 := 2, pw := 2, dr643 := true, blf := 256, coding := 2, trext := true, session := 0 }

/-- The Juggler after reset: no sequence, no retry wait. -/
def Jug.reset : Jug :=
  { steps := 0, seqAt := 0, stepFrom := none, retryAt := 0, gap := 0, forStep := false, gapAt := 0, shut := 0, bad := 0, tempH := 0,
    run := false, calWas := none }

/-- A quad after reset: no lease, token FREE, field off, no channel (R476). The RID counter starts from 0
(DESIGN CHOICE, log entry 4). -/
def QuadSt.reset : QuadSt :=
  { holder := none, token := .free, tokenWas := .free, refreshAt := 0, field := none, carrierAt := 0, carrier := false,
    rampAt := none, cutFrom := none,
    syn := .reset, job := none, exch := none, next := none, sel := none, link := .reset, rid := 0, lastRid := 0,
    prevTags := 0, airAfter := 0, jug := .reset }

/-- A port after reset: nothing received, no baseline, canceller run 0. -/
def PortSt.reset (p : Nat) : PortSt :=
  { recv := none, standby := none, capt := false, clip := false, falseSeen := false, crcFail := false, valid := false,
    ovld := false, buf := [], noise := { num := 0, den := 1 }, frozenGain := none, dsj := Cx.zero, agcAt := 0, rfcAt := 0, rfcRunI := 0,
    rfcRunQ := 0, hrHeld := false, gainSaved := 15, faultRun := 0, driftRun := 0, driftRef := Config.factoryDriftRef p,
    calB := 0, calM := 0, calH := 0, calIq := 0,
    rampAt := none, downAt := 0, detAt := 0, tuneFrom := 0x00082008, base := none, burst := none, burstCut := none,
    compared := false, slotNo := 0 }

/-- An engine that reads nothing. -/
def EngSt.reset : EngSt := { on := false, addr := 0, hits := [], bytes := [], want := 0, from_ := 0, off := 0 }

/-- No low word has been read (R55, R412). -/
def Latch.reset : Latch := { tbNowHi := 0, tbCapHi := 0, serialHi := 0, firedHi := 0, coalHi := 0 }

/-- The fuses as shipped: the die this manual describes (R413), journal blank (R485). Variant, serial number and factory
transmit phases are a DESIGN CHOICE of the model (log entry 3). -/
def FuseSt.factory : FuseSt :=
  { variant := .cx1664, serial := 1, step := 1, metal := 0, txph := [], rows := [] }

/-- Every supply at its typical level, VDD_IO in its 1.8 V range (R494; DESIGN CHOICE, log entry 92). -/
def SupplySt.typical : SupplySt :=
  { core := { mv := 800, up := true }, an := { mv := 1800, up := true }, drv := { mv := 3300, up := true },
    io := { mv := 1800, up := true }, range := some .v1800 }

/-- The machine in full reset with these fuses, recorded with a cause (R419, R465, R469): everything but the fuses stands
at its reset value. -/
def State.inReset (f : FuseSt) (c : Cause) (h : HostPort) : State :=
  { pending := [], regs := [], live := [], ecyc := 0,
    tb := { run := false, now := 0, epoch := 0, capNow := 0, capEpoch := 0, capPhase := 0, capAt := none },
    latches := Vector.replicate 4 .reset, engLatch := .reset, cut := { at_ := 0, regs := [], made := [], more := [], hot := [] },
    lastRead := 0, cntSat := [], past := [], free := 0,
    ports := Vector.ofFn (fun i => PortSt.reset i.val),
    quads := Vector.replicate 4 .reset, ring := false, hosts := Vector.replicate 4 .reset,
    car := { lastStamp := 0xFFFFFFFF, entering := [], slots := [], turned := [], notices := [] },
    bark := { armed := 0, nextMask := none, owner := 0, hdr := 0, periodAt := 0, yielded := 0 },
    beams := [], power := [], ofsHost := 0, roundCtr := 0, ringRid := 0, ringLink := .reset,
    mw := { eNow := 0, fired := [], acted := [], regActed := [], clocked := [], delays := [], ended := [],
            grpOld := [], hold := false, raised := [], ins := [], outAt := 0, outWas := 0 },
    mp := { owner := none, grantAt := 0, sent := [], stretch := 0, low := none, ignore := false, dropped := none,
            waiting := [], lines := [], freeAt := 0, boot := .reset, table := .reset, patch := .reset, records := 0 },
    patch := { bank0 := none, bank1 := none, active := false, hold := none, loader := none },
    fuse := f,
    dir := { entries := [], evict := 0, fifo := [], upd := none, updFree := 0, record := none, freeAt := 0, scan := none,
             lastScan := none, acts := [], fulls := 0,
             eccEmptied := 0, maxDisp := 0, satFulls := false, satEcc := false },
    boot := { stage := .held, cause := c, causeBy := h, bootSrc := false, strap := 0, primary := 0,
              roleJournal := false, region := 0x0FA00000, ceiling := 0, role := 0, dueAt := 0, lines := 0,
              tableOff := none, patchOff := none, prog := none },
    supply := .typical }

/-- The machine right after a power-on reset: in reset, with factory fuses, nothing pending. -/
def State.reset : State := State.inReset FuseSt.factory .powerOn 0

end Sys2Proof.Machine
end

