-- ==== Sys2Proof/Machine/Maps.lean ====
section
/-! DEFINITION. Maps kept as sorted lists in one canonical form: keys strictly rising, and no entry equal to what an
unlisted key reads as (the default). Writing the default removes the entry. -/

namespace Sys2Proof.Machine

/-- The value at a key: the listed one, or the default. -/
def mget {α : Type} (d : Nat → α) : SMap α → Nat → α
  | [], k => d k
  | (j, v) :: t, k => if j = k then v else mget d t k

/-- The map with one value replaced, in canonical form. -/
def mset {α : Type} [DecidableEq α] (d : Nat → α) : SMap α → Nat → α → SMap α
  | [], k, v => if v = d k then [] else [(k, v)]
  | (j, u) :: t, k, v =>
    if j < k then (j, u) :: mset d t k v
    else if j = k then (if v = d k then t else (k, v) :: t)
    else (if v = d k then (j, u) :: t else (k, v) :: (j, u) :: t)

/-- The canonical form: keys strictly rising from `b` on, and no entry equal to its default. -/
def mwf {α : Type} [DecidableEq α] (d : Nat → α) : Nat → SMap α → Bool
  | _, [] => true
  | b, (j, v) :: t => decide (b ≤ j) && (v != d j) && mwf d (j + 1) t

/-- The value at a key of a map without defaults. -/
def mfind {α : Type} : SMap α → Nat → Option α
  | [], _ => none
  | (j, v) :: t, k => if j = k then some v else mfind t k

/-- A map without defaults with one value put in. -/
def mput {α : Type} : SMap α → Nat → α → SMap α
  | [], k, v => [(k, v)]
  | (j, u) :: t, k, v =>
    if j < k then (j, u) :: mput t k v
    else if j = k then (k, v) :: t
    else (k, v) :: (j, u) :: t

/-- A map without one key. -/
def mdel {α : Type} : SMap α → Nat → SMap α
  | [], _ => []
  | (j, u) :: t, k => if j = k then t else (j, u) :: mdel t k

/-- The canonical form of a map without defaults: keys strictly rising from `b` on. -/
def msorted {α : Type} : Nat → SMap α → Bool
  | _, [] => true
  | b, (j, _) :: t => decide (b ≤ j) && msorted (j + 1) t

end Sys2Proof.Machine
end

