-- ==== Sys2Proof/Machine/Regs.lean ====
section
/-! DEFINITION. The register window as tables: banks and their last words (R405), and for each register its name, its reset
word and which bits are RW, W1C, WO or cleared by reading. Each table is written from the field map of the rule it cites. -/

namespace Sys2Proof.Machine

/-- What the field map of a register says: reset word and access masks (R18). -/
structure RegDef where
  name : String
  reset : Word := 0
  rw : Word := 0
  w1c : Word := 0
  wo : Word := 0
  rcl : Bool := false
  deriving DecidableEq, Repr

/-- Port bank, by port word (R149, R187, R220, R245, R270, R315). -/
def portTable : List (Nat × RegDef) :=
  [ (0x08, { name := "PORT_RFE_CFG", reset := 0x00000037, rw := 0x0000003F }),
    (0x09, { name := "PORT_RFC_W" }),
    (0x0A, { name := "PORT_RFE_IQ", rw := 0x03FF03FF }),
    (0x0B, { name := "PORT_RFE_STAT", w1c := 0x00000700 }),
    (0x0C, { name := "PORT_RFE_LEVEL", reset := 0x001E0000 }),
    (0x0D, { name := "PORT_RFE_OVLD", rcl := true }),
    (0x10, { name := "PORT_RX_CFG", reset := 0x0D4DB38E, rw := 0x1FFFFFFF }),
    (0x11, { name := "PORT_RX_THR", reset := 0x00006609, rw := 0x0000FF1F }),
    (0x12, { name := "PORT_RX_AGC", reset := 0x000F140F, rw := 0x001F9F00 }),
    (0x13, { name := "PORT_RX_EQ", reset := 0x00000396, rw := 0x000007FF }),
    (0x14, { name := "PORT_RX_STAT", w1c := 0x0000001F }),
    (0x15, { name := "PORT_RX_LEVEL" }),
    (0x16, { name := "PORT_RX_TRACK" }),
    (0x17, { name := "PORT_RX_FALSE", rcl := true }),
    (0x18, { name := "PORT_RX_CAPT", rcl := true }),
    (0x19, { name := "PORT_RX_CRCF", rcl := true }),
    (0x1A, { name := "PORT_RX_CLIP", rcl := true }),
    (0x1B, { name := "PORT_RX_LATE", rcl := true }),
    (0x20, { name := "PORT_TX_LEVEL", rw := 0x0000007F }),
    (0x21, { name := "PORT_TX_ROT", rw := 0x0007FFFF }),
    (0x22, { name := "PORT_TX_CODE" }),
    (0x28, { name := "PORT_TUN_SET", reset := 0x00082008, rw := 0x003F3F3F }),
    (0x29, { name := "PORT_ANT_MEAS" }),
    (0x2A, { name := "PORT_ANT_CFG", reset := 0x0000A00C, rw := 0x0000F13F }),
    (0x2B, { name := "PORT_ANT_STAT", w1c := 0x00000909 }),
    (0x2C, { name := "PORT_BARK_CFG", reset := 0x00008178, rw := 0x0000F3FF }),
    (0x2D, { name := "PORT_BARK_BASE" }),
    (0x2E, { name := "PORT_BARK_LAST" }),
    (0x2F, { name := "PORT_BARK_SKIP", rcl := true }),
    (0x30, { name := "PORT_GEOM_XY", rw := 0xFFFFFFFF }),
    (0x31, { name := "PORT_GEOM_Z", rw := 0x0001FFFF }),
    (0x32, { name := "PORT_CAL_STAT", reset := 0x00000002, w1c := 0x00000100 }),
    (0x33, { name := "PORT_CAL_RXB" }),
    (0x34, { name := "PORT_CAL_RXM" }),
    (0x35, { name := "PORT_CAL_RXH" }),
    (0x36, { name := "PORT_CAL_RXOFS", rw := 0xFFFFFFFF }),
    (0x37, { name := "PORT_CAL_TXPH", rw := 0x0FFF0000 }),
    (0x38, { name := "PORT_CAL_TEMP" }) ]

/-- Quad bank, by quad word (R219, R316). -/
def quadTable : List (Nat × RegDef) :=
  [ (0x00, { name := "QUAD_SYN_FREQ" }),
    (0x01, { name := "QUAD_SYN_STAT", reset := 0x00000008, w1c := 0x00000700 }),
    (0x02, { name := "QUAD_SYN_CAL", reset := 0x00010000 }),
    (0x03, { name := "QUAD_SYN_TIME" }),
    (0x04, { name := "QUAD_TX_CFG", reset := 0x0000015A, rw := 0x0000137F }),
    (0x05, { name := "QUAD_TX_PA", rw := 0x000003FF }),
    (0x06, { name := "QUAD_TX_STAT", w1c := 0x00000003 }),
    (0x07, { name := "QUAD_SYN_ULCNT", rcl := true }),
    (0x08, { name := "QUAD_TEMP" }),
    (0x09, { name := "QUAD_CAL_ACT" }) ]

/-- Identity words (R413). -/
def idTable : List (Nat × RegDef) :=
  [ (0x00, { name := "ID_VENDOR", reset := 0x00001A4E }),
    (0x01, { name := "ID_PART" }),
    (0x02, { name := "ID_REV", reset := 0x00000100 }),
    (0x03, { name := "ID_SERIAL_LO" }),
    (0x04, { name := "ID_SERIAL_HI" }) ]

/-- System status bank, by offset from 0x0100 (R149, R317, R417). -/
def sysTable : List (Nat × RegDef) :=
  [ (0x00, { name := "SYS_ERR", w1c := 0x000007FF }),
    (0x01, { name := "SYS_RESET" }),
    (0x02, { name := "SYS_DIR_CE", rcl := true }),
    (0x03, { name := "SYS_DIR_DED", rcl := true }),
    (0x04, { name := "SYS_DIR_STAT", w1c := 0x00000003 }),
    (0x40, { name := "SYS_BEAR_CTRL", reset := 0x00001300, rw := 0x0000FF00, wo := 0x00000001 }),
    (0x41, { name := "SYS_BEAR_STAT" }),
    (0x60, { name := "SYS_JUG_CTRL", reset := 0x00000203, rw := 0x00000F03 }),
    (0x61, { name := "SYS_JUG_STAT", w1c := 0x00000300 }),
    (0x62, { name := "SYS_JUG_ABANDON", rcl := true }),
    (0x63, { name := "SYS_CAL_BADREC", rcl := true }) ]

/-- Host-port bank, by offset within a port (R342). -/
def hpTable : List (Nat × RegDef) :=
  [ (0x00, { name := "HP_CFG", reset := 0x00000013, rw := 0x00FFFFF3 }),
    (0x01, { name := "HP_STAT", w1c := 0x001F0000 }),
    (0x02, { name := "HP_QUEUE" }),
    (0x03, { name := "HP_SIGHT_LOST", rcl := true }),
    (0x04, { name := "HP_FRAMES", rcl := true }),
    (0x05, { name := "HP_DISCARD", rcl := true }),
    (0x06, { name := "HP_DUP", rcl := true }),
    (0x07, { name := "HP_REPLAY", rcl := true }) ]

/-- CRC units, by offset within a unit, as CU4 to CU7 have them (R462). -/
def cuTable : List (Nat × RegDef) :=
  [ (0x00, { name := "CU_POLY", reset := 0x04C11DB7, rw := 0xFFFFFFFF }),
    (0x01, { name := "CU_INIT", reset := 0xFFFFFFFF, rw := 0xFFFFFFFF }),
    (0x02, { name := "CU_XOR", rw := 0xFFFFFFFF }),
    (0x03, { name := "CU_CFG", reset := 0x00001F1F, rw := 0x7FFF1F7F }),
    (0x04, { name := "CU_RUN", rw := 0xFFFFFFFF }),
    (0x05, { name := "CU_RESULT" }),
    (0x06, { name := "CU_CTRL", wo := 0x00000001 }),
    (0x07, { name := "CU_CHECK", wo := 0xFFFFFFFF }),
    (0x08, { name := "CU_STAT", w1c := 0x00000300 }),
    (0x09, { name := "CU_FAILS", rcl := true }),
    (0x0A, { name := "CU_BITS", rw := 0xFFFFFFFF }),
    (0x0B, { name := "CU_ALIVE", rw := 0x00007F1F }) ]

/-- Memory port, by offset from 0x1800 (R463). -/
def mpTable : List (Nat × RegDef) :=
  [ (0x00, { name := "MP_CFG", rw := 0x00000001 }),
    (0x01, { name := "MP_LEN" }),
    (0x02, { name := "MP_STAT", w1c := 0x00001E00 }),
    (0x03, { name := "MP_XIP_CFG", reset := 0x00A00B81 }),
    (0x04, { name := "MP_XIP_BASE" }),
    (0x05, { name := "MP_XIP_MODE", reset := 0x000000A0, rw := 0x000000FF }),
    (0x06, { name := "MP_FILLS", rcl := true }),
    (0x07, { name := "MP_ABANDON", rcl := true }),
    (0x08, { name := "MP_MRDY_TO", rcl := true }) ]

/-- Timebase, by offset from 0x1C00 (R54). -/
def tbTable : List (Nat × RegDef) :=
  [ (0x00, { name := "TB_NOW_LO" }),
    (0x01, { name := "TB_NOW_HI" }),
    (0x02, { name := "TB_EPOCH" }),
    (0x03, { name := "TB_CAP_LO" }),
    (0x04, { name := "TB_CAP_HI" }),
    (0x05, { name := "TB_CTRL", wo := 0x00000001 }),
    (0x06, { name := "TB_STAT", reset := 0x00000100, w1c := 0x00000003 }) ]

/-- The first row of a table with this number. -/
def findReg : List (Nat × RegDef) → Nat → Option RegDef
  | [], _ => none
  | (j, r) :: t, k => if j = k then some r else findReg t k

/-- A Midway register (R441). -/
def midwayReg (a : Nat) : Option RegDef :=
  if a < 0x1040 then some { name := "CH_CFG", rw := 0x01010F0F }
  else if a < 0x1048 then some { name := "CH_GRP", reset := 1, rw := 7 }
  else if a = 0x1048 then some { name := "CH_FIRED_LO", w1c := 0xFFFFFFFF }
  else if a = 0x1049 then some { name := "CH_FIRED_HI", w1c := 0xFFFFFFFF }
  else if a = 0x104A then some { name := "CH_COAL_LO", w1c := 0xFFFFFFFF }
  else if a = 0x104B then some { name := "CH_COAL_HI", w1c := 0x000001FF }
  else if a = 0x104C then some { name := "CH_STAT", w1c := 0x0000FF0F }
  else if a = 0x104D then some { name := "CH_OUT_CTRL", wo := 0x00000FFF }
  else if a < 0x1050 then none
  else if a < 0x1058 then some { name := "CH_DLY_LOAD", reset := 1, rw := 0xFFFFFFFF }
  else if a = 0x1058 then some { name := "CH_DLY_CTRL", wo := 0x0000FFFF }
  else if a < 0x1060 then none
  else if a < 0x1068 then some { name := "CH_CNT", rcl := true }
  else none

/-- A CRC-bank register (R454, R456, R462): CU0 to CU3 are bound, so nothing of them but their flags and their counter can
be written. -/
def crcReg (a : Nat) : Option RegDef :=
  if a < 0x1480 then
    match findReg cuTable (a % 16) with
    | none => none
    | some r => if a < 0x1440 then some { r with rw := 0, wo := 0, reset := if a % 16 < 4 then r.reset else 0 } else some r
  else if a < 0x1500 then none
  else if a < 0x1600 then some { name := "CU_DATA", wo := 0xFFFFFFFF }
  else none

/-- The register a word address names on the largest variant, if any (R405). -/
def regDef (a : Nat) : Option RegDef :=
  if a < 0x0008 then findReg idTable a
  else if a < 0x0023 then some { name := "CAPABILITY" }
  else if a < 0x0100 then none
  else if a < 0x0150 then findReg sysTable (a - 0x0100)
  else if a < 0x0154 then some { name := "SYS_RXCMB", reset := 0x000000AC, rw := 0x000000FF }
  else if a < 0x0400 then findReg sysTable (a - 0x0100)
  else if a < 0x0800 then findReg portTable (a % 64)
  else if a < 0x0900 then findReg quadTable (a % 64)
  else if a < 0x1000 then none
  else if a < 0x1400 then midwayReg a
  else if a < 0x1800 then crcReg a
  else if a < 0x1C00 then findReg mpTable (a - 0x1800)
  else if a < 0x2000 then findReg tbTable (a - 0x1C00)
  else if a < 0x2040 then findReg hpTable (a % 16)
  else if a = 0x2040 then some { name := "HP_ROLE" }
  else if a < 0x2400 then none
  else if a < 0x2408 then some { name := "JNL" }
  else if a < 0x2500 then none
  else if a < 0x2600 then some { name := "JNL_REC" }
  else none

/-- The word an unwritten register reads as: its reset word (R469). -/
def resetWord (a : Nat) : Word :=
  match regDef a with
  | some r => r.reset
  | none => 0

/-- The last word of the bank an address belongs to (R405). -/
def bankLast (a : Nat) : Nat :=
  if a < 0x0100 then 0x0022
  else if a < 0x0400 then 0x0163
  else if a < 0x0800 then 0x07FF
  else if a < 0x1000 then 0x08FF
  else if a < 0x1400 then 0x1067
  else if a < 0x1800 then 0x15FF
  else if a < 0x1C00 then 0x1808
  else if a < 0x2000 then 0x1C06
  else if a < 0x2400 then 0x2040
  else 0x25FF

/-- An address lies beyond the end for an access that starts at `start` (R407). -/
def beyond (start a : Nat) : Bool := decide (bankLast start < a)

/-- Whether the port and quad words, and the words of fused-off units, exist on a variant (R6, R406). -/
def regPresent (v : Variant) (a : Nat) : Bool :=
  if a < 0x0140 then true
  else if a < 0x0142 then Config.hasBearing v
  else if a < 0x0150 then true
  else if a < 0x0154 then decide (a - 0x0150 < Config.quads v)
  else if a < 0x0400 then true
  else if a < 0x0800 then
    decide ((a - 0x0400) / 64 < Config.ports v) &&
      (Config.hasBearing v || !(decide (0x2C ≤ a % 64 ∧ a % 64 ≤ 0x31)))
  else if a < 0x0900 then decide ((a - 0x0800) / 64 < Config.quads v)
  else true

/-- The quad whose lease a write to this word needs (R360): of its quad bank or of a port bank of its ports. -/
def regQuad (a : Nat) : Option Nat :=
  if 0x0400 ≤ a ∧ a < 0x0800 then some ((a - 0x0400) / 256)
  else if 0x0800 ≤ a ∧ a < 0x0900 then some ((a - 0x0800) / 64)
  else none

/-- Word address of a port register. -/
def aPort (p : Port) (off : Nat) : Nat := 0x0400 + 64 * p.val + off

/-- Word address of a quad register. -/
def aQuad (q : Quad) (off : Nat) : Nat := 0x0800 + 64 * q.val + off

/-- Word address of a host-port register. -/
def aHp (h : HostPort) (off : Nat) : Nat := 0x2000 + 16 * h.val + off

/-- Word address of a CRC-unit register; `u` is the unit's number 0 to 7. -/
def aCu (u off : Nat) : Nat := 0x1400 + 16 * u + off

/-- SYS_ERR (R417). -/
def aSysErr : Nat := 0x0100
/-- SYS_RXCMB of a quad (R189). -/
def aRxcmb (q : Quad) : Nat := 0x0150 + q.val
/-- CH_STAT (R441). -/
def aChStat : Nat := 0x104C
/-- TB_STAT (R54). -/
def aTbStat : Nat := 0x1C06
/-- MP_STAT (R463). -/
def aMpStat : Nat := 0x1802
/-- JNL_BOOT as the boot leaves it (R490). -/
def aJnlBoot : Nat := 0x2405

end Sys2Proof.Machine
end

