-- ==== Sys2Proof/Machine/Ops.lean ====
section
/-! DEFINITION. The named operations every meaning is built from: reading and writing a register word, event counters
(R60, R61), the timebase count of an E-cycle (R51), quads and groups (R23, R27), ports, host ports and commands in flight. -/

namespace Sys2Proof.Machine

/-- A bit of a register is a flag that a written 1 clears (R18). -/
def isFlag (a i : Nat) : Bool := match regDef a with | some r => bitAt r.w1c i | none => false

namespace State

/-- A register word as written. -/
def reg (s : State) (a : Nat) : Word := mget resetWord s.regs a

/-- A register word as reads of this E-cycle see it: before the E-cycle's internal changes (R408, R411). -/
def view (s : State) (a : Nat) : Word := if s.cut.at_ = s.ecyc then mget resetWord s.cut.regs a else s.reg a

/-- A register word replaced. -/
def setReg (s : State) (a : Nat) (w : Word) : State := { s with regs := mset resetWord s.regs a w }

/-- The value in use of a register whose effect is deferred (R410). -/
def inUse (s : State) (a : Nat) : Word := mget resetWord s.live a

/-- The value in use replaced. -/
def setUse (s : State) (a : Nat) (w : Word) : State := { s with live := mset resetWord s.live a w }

/-- The copy that reads see of a register word replaced. -/
def setView (s : State) (a : Nat) (w : Word) : State :=
  if s.cut.at_ = s.ecyc then { s with cut := { s.cut with regs := mset resetWord s.cut.regs a w } } else s

/-- A field of a register word replaced. -/
def setRegFld (s : State) (a hi lo v : Nat) : State := s.setReg a (setFld (s.reg a) hi lo v)

/-- A flag that hardware has set in this E-cycle is noted as such: a 1 written to it in the same E-cycle leaves it set
(R411). -/
def noteFlag (s : State) (a i : Nat) : RegCut :=
  if s.cut.at_ = s.ecyc then
    { s.cut with hot := mset (fun _ => 0) s.cut.hot a (setBit (mget (fun _ => 0) s.cut.hot a) i true) }
  else s.cut

/-- A bit of a register word replaced; a flag that sets is noted (R411). -/
def setRegBit (s : State) (a i : Nat) (b : Bool) : State :=
  { s.setReg a (setBit (s.reg a) i b) with cut := if b && isFlag a i then s.noteFlag a i else s.cut }

/-- A sticky flag of SYS_ERR sets (R418). -/
def setErr (s : State) (i : Nat) : State := s.setRegBit aSysErr i true

/-- The value in use of a deferred register becomes the written one. -/
def apply1 (s : State) (a : Nat) : State := s.setUse a (s.reg a)

/-- One port changed. -/
def updPort (s : State) (p : Port) (f : PortSt → PortSt) : State := { s with ports := s.ports.set p (f s.ports[p]) }

/-- One quad changed. -/
def updQuad (s : State) (q : Quad) (f : QuadSt → QuadSt) : State := { s with quads := s.quads.set q (f s.quads[q]) }

/-- One host port changed. -/
def updHost (s : State) (h : HostPort) (f : HpSt → HpSt) : State := { s with hosts := s.hosts.set h (f s.hosts[h]) }

/-- One set of latches changed (R412). -/
def updLatch (s : State) (h : HostPort) (f : Latch → Latch) : State :=
  { s with latches := s.latches.set h (f s.latches[h]) }

/-- The model's own counter read and advanced: every free value is taken at a new count. -/
def spend (s : State) : State := { s with free := s.free + 1 }

/-- Variant of this die (R1). -/
def variant (s : State) : Variant := s.fuse.variant

/-- READY is high: the device runs (R476). -/
def isReady (s : State) : Bool := s.boot.stage == .ready

end State

/-- The word and bit of a counter's SAT flag (the field maps). -/
def satOf (a : Nat) : Nat × Nat :=
  if a < 0x0400 then
    if a = 0x0102 then (0x0104, 0) else if a = 0x0103 then (0x0104, 1)
    else if a = 0x0162 then (0x0161, 8) else (0x0161, 9)
  else if a < 0x0800 then
    if a % 64 = 0x0D then (a - 2, 10) else if a % 64 = 0x2F then (a - 4, 11) else (a - a % 64 + 0x14, a % 64 - 0x17)
  else if a < 0x1000 then (a - 6, 10)
  else if a < 0x1400 then (aChStat, 8 + (a - 0x1060))
  else if a < 0x1800 then (a - 1, 9)
  else if a < 0x2000 then (aMpStat, 10 + (a - 0x1806))
  else (a - a % 16 + 1, 13 + a % 16)

/-- One count of an event counter: it holds at its largest value, and the first count past it sets the SAT flag and makes
CNT_SAT due in the E-cycle that follows; a count that finds no room is remembered for the E-cycle (R60, R61). -/
def bump (s : State) (a : Nat) : State :=
  if s.reg a = 0xFFFFFFFF then
    let s := { s with cut := if s.cut.at_ = s.ecyc then { s.cut with more := a :: s.cut.more } else s.cut }
    if s.past.contains a then s
    else { (s.setRegBit (satOf a).1 (satOf a).2 true) with past := a :: s.past, cntSat := s.cntSat ++ [s.ecyc] }
  else s.setReg a (s.reg a + 1)

/-- The counts of this E-cycle that a read of a counter does not see (R61). -/
def unseenCount (s : State) (a : Nat) : Word :=
  if s.cut.at_ = s.ecyc then s.reg a - s.view a + (if s.cut.more.contains a then 1 else 0) else 0

/-- A counter cleared by reading: counts of this E-cycle, which the read does not see, are kept; a later read of the E-cycle
returns them (R60, R61, R409). -/
def clearCnt (s : State) (a : Nat) : State :=
  let kept := unseenCount s a
  let t := (s.setView a kept).setReg a kept
  { t with past := t.past.filter (· != a), cut := { t.cut with more := t.cut.more.filter (· != a) } }

/-- The words of two register maps that differ. -/
def changedWords (m n : SMap Word) : List Nat :=
  ((m ++ n).map (·.1)).filter (fun a => mget resetWord m a != mget resetWord n a)

/-- The words of CU4 to CU7 that feeds, starts and checks change: reads of the same E-cycle see them before (R461). -/
def isFed (a : Nat) : Bool :=
  decide (0x1440 ≤ a ∧ a < 0x1480) && (a % 16 == 4 || a % 16 == 5 || a % 16 == 8 || a % 16 == 10 || a % 16 == 11)

/-- What reads see of a word that a command has changed: event counters, W1C flags and what a CRC unit is fed change as
internal changes do, and so from the next E-cycle on (R408, R411, R461). -/
def seenWord (a : Nat) (old new : Word) : Word :=
  match regDef a with
  | some r => if r.rcl || isFed a then old else (old &&& r.w1c) ||| (new &&& ~~~ r.w1c)
  | none => old

/-- TB_EPOCH and TB_NOW as one 56-bit time (R52). -/
def tb56 (s : State) : Nat := s.tb.epoch.toNat * 2 ^ 48 + s.tb.now.toNat

/-- The CLK_T edge of this E-cycle has not advanced the count yet (R49, R51). -/
def edgePending (s : State) : Bool :=
  s.tb.run && s.ecyc % 160 == 0 && (tb56 s + 1) % 2 ^ 56 == (s.ecyc / 160) % 2 ^ 56

/-- The count captures and timestamps take in this E-cycle: the one after its CLK_T edge (R51). -/
def tbCount (s : State) : Nat := if edgePending s then (tb56 s + 1) % 2 ^ 56 else tb56 s

/-- The count a register read sees in this E-cycle: the one before its CLK_T edge (R51, R55). -/
def tbRead (s : State) : Nat :=
  if s.tb.run && decide (0 < s.ecyc) && s.ecyc % 160 == 0 && tb56 s == (s.ecyc / 160) % 2 ^ 56 then (tb56 s + 2 ^ 56 - 1) % 2 ^ 56
  else tb56 s

/-- The machine as of an earlier E-cycle of this run of the timebase, as a late effect meets it: the E-cycle and the count in
it (R51, R56). -/
def backTo (s : State) (t : Nat) : State :=
  let n := (tbCount s + 2 ^ 56 - (s.ecyc / 160 - t / 160) % 2 ^ 56) % 2 ^ 56
  { s with ecyc := t, tb := { s.tb with now := BitVec.ofNat 48 n, epoch := BitVec.ofNat 8 (n / 2 ^ 48) } }

/-- The machine in the present E-cycle of `s` again, with what happened in an earlier one (R51). -/
def returnTo (s u : State) : State :=
  { u with ecyc := s.ecyc, tb := { u.tb with now := s.tb.now, epoch := s.tb.epoch } }

/-- TB_NOW as a timestamp of this E-cycle (R57). -/
def stampNow (s : State) : BitVec 48 := BitVec.ofNat 48 (tbCount s)

/-- The timestamp of an earlier E-cycle of this run of the timebase (R57). -/
def stampAt (e : Nat) : BitVec 48 := BitVec.ofNat 48 (e / 160)

/-- The present quads of a variant (R1). -/
def presentQuads (v : Variant) : List Quad := [0, 1, 2, 3].filter (fun q : Quad => decide (q.val < Config.quads v))

/-- A quad is present (R1). -/
def quadPresent (s : State) (q : Quad) : Bool := decide (q.val < Config.quads s.variant)

/-- A port is present (R1). -/
def portPresent (s : State) (p : Port) : Bool := decide (p.val < Config.ports s.variant)

/-- A quad belongs to the ring in effect (R27). -/
def inRing (s : State) (q : Quad) : Bool := s.ring && quadPresent s q

/-- The quads that act as one with this quad: itself, or the whole ring (R27, R34). -/
def groupOf (s : State) (q : Quad) : List Quad := if inRing s q then presentQuads s.variant else [q]

/-- The quad that stands for a group: Q0 for the ring (R199, R429). -/
def lead (s : State) (q : Quad) : Quad := if inRing s q then 0 else q

/-- The ports of a quad (R23). -/
def portsOf (q : Quad) : List Port :=
  [⟨4 * q.val, by omega⟩, ⟨4 * q.val + 1, by omega⟩, ⟨4 * q.val + 2, by omega⟩, ⟨4 * q.val + 3, by omega⟩]

/-- The quad of a port (R23). -/
def quadOf (p : Port) : Quad := ⟨p.val / 4, by omega⟩

/-- The ports of a group (R24, R27). -/
def groupPorts (s : State) (q : Quad) : List Port := (groupOf s q).flatMap portsOf

/-- The groups of the device, each by its lead. -/
def leads (s : State) : List Quad := (presentQuads s.variant).filter (fun q => lead s q == q)

/-- Every port. -/
def allPorts : List Port := ([0, 1, 2, 3] : List Quad).flatMap portsOf

/-- A quad's field counts as on (R208). -/
def fieldIsOn (s : State) (q : Quad) : Bool := s.quads[q].field.isSome

/-- A group radiates under CONTROL. -/
def underControl (s : State) (q : Quad) : Bool := s.quads[q].token == .control && fieldIsOn s q

/-- The quads of a mask that names any of a group name all of it in ring mode (R361, R362, R384). -/
def spreadMask (s : State) (m : Nat) : List Quad :=
  [0, 1, 2, 3].filter (fun q : Quad => (groupOf s q).any (fun r => m.testBit r.val))

/-- A list of quads as a mask. -/
def maskOf (qs : List Quad) : Nat := qs.foldl (fun a q => a ||| 2 ^ q.val) 0

/-- A list of ports as a mask. -/
def portMask (ps : List Port) : Nat := ps.foldl (fun a p => a ||| 2 ^ p.val) 0

/-- State changes over a list, in order. -/
def each {α : Type} (l : List α) (f : α → State → State) (s : State) : State := l.foldl (fun t x => f x t) s

/-- The command in flight with a stamp. -/
def findSlot (s : State) (k : Word) : Option Slot := s.car.slots.find? (fun sl => sl.stamp == k)

/-- One command in flight changed. -/
def updSlot (s : State) (k : Word) (f : Slot → Slot) : State :=
  { s with car := { s.car with slots := s.car.slots.map (fun sl => if sl.stamp = k then f sl else sl) } }

/-- A synthesiser has declared lock and runs no calibration: nothing holds a transmit action (R196, R200). -/
def synReady (s : State) (q : Quad) : Bool :=
  bitAt (s.reg (aQuad (lead s q) 0x01)) 0 && s.quads[lead s q].syn.calFrom.isNone

/-- The channel of a group: FREQ, if one has been set (R191, R219). -/
def channel (s : State) (q : Quad) : Option Nat :=
  let w := s.reg (aQuad (lead s q) 0x00)
  if bitAt w 26 then some (fld w 25 0) else none

/-- A frequency word lies inside a region plan: 860 MHz + LOW × 25 kHz ≤ FREQ × 23.4375 Hz ≤ 860 MHz + HIGH × 25 kHz, both
sides taken exactly in units of 1/16 Hz (R190, R192). -/
def inRegion (region : Word) (freq : Nat) : Bool :=
  decide ((860000000 + fld region 15 0 * 25000) * 16 ≤ freq * 375 ∧
    freq * 375 ≤ (860000000 + fld region 31 16 * 25000) * 16)

/-- The group has a channel and it lies inside the region plan in force (R208, R217). -/
def channelOk (s : State) (q : Quad) : Bool :=
  match channel s q with
  | some f => inRegion s.boot.region f
  | none => false

end Sys2Proof.Machine
end

