-- ==== Sys2Proof/Machine/Fabric.lean ====
section
/-! DEFINITION. The Midway fabric as operations (15_midway_events.md): the wiring tables, the firing of an event, the action
of a task from a channel or from its register, and the timebase advance that fires TB_WRAP (R52). -/

namespace Sys2Proof.Machine

/-- A delay number (R433). -/
def dly (k : Nat) : DelayNo := ⟨k % 8, by omega⟩

/-- A ball or quad number modulo 4. -/
def four (k : Nat) : Fin 4 := ⟨k % 4, by omega⟩

/-- The port 4q + i. -/
def portAt (q i : Nat) : Port := ⟨(4 * q + i) % 16, by omega⟩

/-- Sources of row `k` of quad group `q` (R431). -/
def quadSources (q k : Nat) : List MwEvent :=
  let r := four q
  match k with
  | 0 => [.bark (portAt q 0), .bark (portAt q 1), .bark (portAt q 2), .bark (portAt q 3)]
  | 1 => [.antFault (portAt q 0), .antFault (portAt q 1), .antFault (portAt q 2), .antFault (portAt q 3)]
  | 2 => [.ringLost r, .synUnlock r, .fieldDown r, .fieldUp r]
  | 3 => [.roundStart r, .roundEnd r, .sight r, .inRise r]
  | 4 => [.calDone r, .calFail r, .txphDrift r, .dlyDone (dly (2 * q + 1))]
  | 5 => [.dlyDone (dly (2 * q)), .dlyDone (dly (2 * q + 1)), .inRise r, .inFall r]
  | 6 => [.inFall r, .dlyDone (dly (2 * q)), .sight r, .roundStart r]
  | _ => [.inRise r, .roundEnd r, .fieldUp r, .dlyDone (dly (2 * q + 1))]

/-- Destinations of row `k` of quad group `q` (R431). -/
def quadDests (q k : Nat) : List MwTask :=
  let r := four q
  let a := dly (2 * q)
  let b := dly (2 * q + 1)
  match k with
  | 0 => [.outSet r, .tbCapture, .cntInc a, .dlyStart a]
  | 1 => [.fieldCut r, .outSet r, .cntInc b, .tbCapture]
  | 2 => [.outClr r, .outSet r, .tbCapture, .dlyStop a]
  | 3 => [.tbCapture, .cntInc a, .cntInc b, .outTgl r]
  | 4 => [.outSet r, .cntInc b, .dlyStart b, .outClr r]
  | 5 => [.dlyStart a, .dlyStart b, .outTgl r, .tbCapture]
  | 6 => [.fieldCut r, .dlyStop b, .outClr r, .cntInc a]
  | _ => [.dlyStart a, .dlyStop a, .outSet r, .cntInc b]

/-- Sources of row `k` of system group 4 + `n` (R432). -/
def sysSources (n k : Nat) : List MwEvent :=
  let r := four n
  let m := four (n + 1)
  let a := dly (2 * n)
  let b := dly (2 * n + 1)
  match k with
  | 0 => [.tbWrap, .dirFull, .dirEcc, .cntSat]
  | 1 => [.dlyDone a, .dlyDone b, .inRise r, .inRise m]
  | 2 => [.dlyDone a, .dlyDone b, .inFall r, .inFall m]
  | 3 => [.inRise r, .inFall r, .dlyDone a, .cntSat]
  | 4 => [.dlyDone a, .inRise r, .tbWrap, .dirFull]
  | 5 => [.dlyDone b, .inFall r, .dirEcc, .cntSat]
  | 6 => [.inFall r, .inRise r, .dlyDone b, .dlyDone a]
  | _ => [.inRise r, .dlyDone b, .inRise m, .dirFull]

/-- Destinations of row `k` of system group 4 + `n` (R432). -/
def sysDests (n k : Nat) : List MwTask :=
  let r := four n
  let m := four (n + 1)
  let a := dly (2 * n)
  let b := dly (2 * n + 1)
  match k with
  | 0 => [.tbCapture, .outSet r, .cntInc a, .dlyStart b]
  | 1 => [.dlyStart a, .dlyStart b, .outTgl r, .tbCapture]
  | 2 => [.dlyStart b, .dlyStop a, .outClr r, .cntInc b]
  | 3 => [.cntInc a, .cntInc b, .outTgl r, .outTgl m]
  | 4 => [.outSet r, .outSet m, .dlyStop a, .dlyStop b]
  | 5 => [.outClr r, .outClr m, .tbCapture, .dlyStart a]
  | 6 => [.fieldCut 0, .fieldCut 1, .fieldCut 2, .fieldCut 3]
  | _ => [.dlyStart b, .cntInc b, .outSet r, .tbCapture]

/-- The four sources of a channel (R421, R431, R432). -/
def chSources (c : Nat) : List MwEvent :=
  if c < 32 then quadSources (c / 8) (c % 8) else sysSources ((c - 32) / 8) (c % 8)

/-- The four destinations of a channel (R421, R431, R432). -/
def chDests (c : Nat) : List MwTask :=
  if c < 32 then quadDests (c / 8) (c % 8) else sysDests ((c - 32) / 8) (c % 8)

/-- The number of a task in CH_COAL (R442). -/
def taskNo : MwTask → Nat
  | .tbCapture => 0
  | .dlyStart k => 1 + k.val
  | .dlyStop k => 9 + k.val
  | .cntInc k => 17 + k.val
  | .outSet n => 25 + n.val
  | .outClr n => 29 + n.val
  | .outTgl n => 33 + n.val
  | .fieldCut q => 37 + q.val

/-- Which sources of a channel an event drives, as a mask of SRC_EN bits. -/
def srcMask (c : Nat) (ev : MwEvent) : Nat :=
  match chSources c with
  | [a, b, d, e] => b2n (a == ev) + 2 * b2n (b == ev) + 4 * b2n (d == ev) + 8 * b2n (e == ev)
  | _ => 0

/-- The fabric with the lists of this E-cycle: what an earlier E-cycle left in them is dropped. -/
def mwFresh (s : State) : State :=
  if s.mw.eNow = s.ecyc then s
  else { s with mw := { s.mw with eNow := s.ecyc, fired := [], acted := [], regActed := [], grpOld := [] } }

/-- The timebase captured in this E-cycle (R56). A task capture overrides the source bit of a write's capture. -/
def tbCapture (s : State) (byTask : Bool) : State :=
  let src := byTask || (match s.tb.capAt with | some (e, t) => e == s.ecyc && t | none => false)
  let s := { s with tb := { s.tb with
    capNow := stampNow s, capEpoch := BitVec.ofNat 8 (tbCount s / 2 ^ 48), capPhase := BitVec.ofNat 8 (s.ecyc % 160),
    capAt := some (s.ecyc, src) } }
  (s.setRegBit aTbStat 2 src).setRegBit aTbStat 1 true

/-- A task has been triggered in this E-cycle by a channel or by its register. -/
def triggered (s : State) (t : MwTask) : Bool := s.mw.acted.contains t || s.mw.regActed.contains t

/-- A delay starts or restarts with its loaded length; 0 acts as 1. A start in the E-cycle of its DONE leaves that DONE to
fire (R433). -/
def dlyStart (s : State) (k : DelayNo) : State :=
  let l := (s.reg (0x1050 + k.val)).toNat
  let past := match mfind s.mw.delays k.val with
    | some e => if e ≤ s.ecyc then mput s.mw.ended k.val e else s.mw.ended
    | none => s.mw.ended
  { s with mw := { s.mw with delays := mput s.mw.delays k.val (s.ecyc + (if l = 0 then 1 else l)), ended := past } }

/-- A delay becomes idle and fires nothing (R433). -/
def dlyStop (s : State) (k : DelayNo) : State :=
  { s with mw := { s.mw with delays := mdel s.mw.delays k.val, ended := mdel s.mw.ended k.val } }

/-- An output bit is written; the ball follows in the next E-cycle (R437). -/
def outBit (s : State) (n : BallNo) (b : Bool) : State :=
  let was := if s.mw.outAt = s.ecyc then s.mw.outWas else BitVec.ofNat 4 (fld (s.reg aChStat) 19 16)
  { s.setRegBit aChStat (16 + n.val) b with mw := { s.mw with outAt := s.ecyc, outWas := was } }

/-- The level of output MW_OUTn in this E-cycle: its bit as it stood when the E-cycle began (R437, R512). -/
def mwOut (s : State) (n : BallNo) : Bool :=
  if s.mw.outAt = s.ecyc then s.mw.outWas.getLsbD n.val else bitAt (s.reg aChStat) (16 + n.val)

/-- FIELD_CUT_T begins a cut of the quad or ring, PA_EN falling with it: only while its token is in CONTROL (R213, R436). -/
def beginFieldCut (s : State) (q : Quad) : State :=
  if quadPresent s q && s.quads[lead s q].token == .control && s.quads[lead s q].cutFrom.isNone then
    each (groupOf s q) (fun r t =>
      (t.updQuad r (fun x => { x with cutFrom := some s.ecyc })).setRegBit (aQuad r 0x05) 16 false) s
  else s

/-- What a task does, with the precedences of R425 against what else was triggered in this E-cycle. -/
def taskAct (s : State) (t : MwTask) : State :=
  match t with
  | .tbCapture => tbCapture s true
  | .dlyStart k => if triggered s (.dlyStop k) then s else dlyStart s k
  | .dlyStop k => dlyStop s k
  | .cntInc k => bump s (0x1060 + k.val)
  | .outSet n => if triggered s (.outClr n) then s else outBit s n true
  | .outClr n => outBit s n false
  | .outTgl n =>
    if triggered s (.outClr n) || triggered s (.outSet n) then s
    else outBit s n (!bitAt (s.reg aChStat) (16 + n.val))
  | .fieldCut q => beginFieldCut s q

/-- A task input receives a trigger from a channel: it acts once in an E-cycle, and a second channel sets its CH_COAL bit;
a meeting with its register trigger sets none (R424). -/
def deliver (s : State) (t : MwTask) : State :=
  if s.mw.acted.contains t then s.setRegBit (0x104A + taskNo t / 32) (taskNo t % 32) true
  else
    let s' := { s with mw := { s.mw with acted := t :: s.mw.acted } }
    if s.mw.regActed.contains t then
      (match t with
       | .tbCapture => tbCapture s' true
       | _ => s')
    else taskAct s' t

/-- The triggers of a channel to the destinations of a DST_EN mask (R423). -/
def deliverAll (s : State) (c dst : Nat) : State :=
  each ((chDests c).zip [0, 1, 2, 3]) (fun d t => if dst.testBit d.2 then deliver t d.1 else t) s

/-- A group's enable as events of this E-cycle see it (R428). -/
def groupEnabled (s : State) (g : Nat) : Bool :=
  match mfind s.mw.grpOld g with
  | some (e, old) => if e = s.ecyc then old else bitAt (s.reg (0x1040 + g)) 0
  | none => bitAt (s.reg (0x1040 + g)) 0

/-- One channel judges an event (R422) and delivers it, now or one E-cycle later (R423). -/
def channelFire (s : State) (c : Nat) (ev : MwEvent) : State :=
  let w := s.reg (0x1000 + c)
  if bitAt w 24 && groupEnabled s (c / 8) && (fld w 3 0 &&& srcMask c ev) != 0 && !s.mw.fired.contains c then
    let s := s.setRegBit (0x1048 + c / 32) (c % 32) true
    let s := { s with mw := { s.mw with fired := c :: s.mw.fired } }
    if bitAt w 16 then { s with mw := { s.mw with clocked := s.mw.clocked ++ [(c, fld w 11 8, s.ecyc)] } }
    else deliverAll s c (fld w 11 8)
  else s

/-- The group task an event drives: its group, and whether it enables (R428). -/
def groupTask : MwEvent → Option (Nat × Bool)
  | .fieldUp q => some (q.val, true)
  | .fieldDown q => some (q.val, false)
  | .inRise n => some (4 + n.val, true)
  | .inFall n => some (4 + n.val, false)
  | _ => none

/-- A group task acts where its gate is set; DISABLE wins over ENABLE in one E-cycle (R425, R428). -/
def groupAct (s : State) (ev : MwEvent) : State :=
  match groupTask ev with
  | none => s
  | some (g, en) =>
    let w := s.reg (0x1040 + g)
    if bitAt w (if en then 1 else 2) then
      match mfind s.mw.grpOld g with
      | some _ => if en && !bitAt w 0 then s else s.setReg (0x1040 + g) (setBit w 0 en)
      | none =>
        { (s.setReg (0x1040 + g) (setBit w 0 en)) with
          mw := { s.mw with grpOld := mput s.mw.grpOld g (s.ecyc, bitAt w 0) } }
    else s

/-- An event fires in this E-cycle: every channel judges it under the old group enables, then the group tasks act. -/
def fire (s : State) (ev : MwEvent) : State :=
  groupAct (each (List.range 64) (fun c t => channelFire t c ev) (mwFresh s)) ev

/-- Events raised from here on wait, or no longer wait, for the end of the E-cycle (R426). -/
def holdEvents (s : State) (b : Bool) : State := { s with mw := { s.mw with hold := b } }

/-- An event arises: inside a command's own row it is judged when the E-cycle ends, else at once (R426). -/
def raise (s : State) (ev : MwEvent) : State :=
  if s.mw.hold then { s with mw := { s.mw with raised := s.mw.raised ++ [ev] } } else fire s ev

/-- The events of an E-cycle that waited for its commands are judged (R355, R426). -/
def judgeRaised (s : State) : State :=
  each s.mw.raised (fun ev t => fire t ev) { s with mw := { s.mw with raised := [] } }

/-- A task's register trigger (CH_DLY_CTRL, CH_OUT_CTRL): it acts once with whatever else triggers it in the E-cycle and
sets no CH_COAL bit (R424). -/
def regTask (s : State) (t : MwTask) : State :=
  let s := mwFresh s
  let s' := { s with mw := { s.mw with regActed := if s.mw.regActed.contains t then s.mw.regActed
                                                     else t :: s.mw.regActed } }
  if triggered s t then s' else taskAct s' t

/-- The quad whose producers a quad's event fires on: Q0 for a ring quad (R429). -/
def fireQuad (s : State) (q : Quad) (ev : Quad → MwEvent) : State := raise s (ev (lead s q))

/-- The timebase advances by one T-tick; a wrap increments TB_EPOCH, sets WRAPPED and fires TB_WRAP (R51, R52). -/
def tbAdvance (s : State) : State :=
  let s' := { s with tb := { s.tb with now := s.tb.now + 1 } }
  if s.tb.now = 0xFFFFFFFFFFFF then
    fire ({ s' with tb := { s'.tb with epoch := s.tb.epoch + 1 } }.setRegBit aTbStat 0 true) .tbWrap
  else s'

end Sys2Proof.Machine
end

