-- ==== Sys2Proof/Machine/Link.lean ====
section
/-! DEFINITION. Units and host-port queues as operations (11_host_ports.md, R347, R348, R357 to R359): the words of a unit,
places, records updated in place or held aside, the status word, the announcement, delivery, and the IRQn condition. -/

namespace Sys2Proof.Machine

/-- Words of a unit, header and CRC included (R347). -/
def unitWords (u : OutUnit) : Nat := 3 + u.body.length

/-- A sighting record or an action record (R348). -/
def isRecord (u : OutUnit) : Bool := u.ukind == 1 || u.ukind == 6

/-- A DUP unit (R331). -/
def isDup (u : OutUnit) : Bool := u.ukind == 0 && u.status == 0x21

/-- A unit in a command place: a reply or a snapshot unit (R358). -/
def isCommandUnit (u : OutUnit) : Bool := (u.ukind == 0 && u.status != 0x21) || u.ukind == 5

/-- The header word of a unit (R347). -/
def unitHeader (u : OutUnit) : Word :=
  put 24 8 u.status.toNat ||| put 20 4 u.tag.toNat ||| put 16 4 u.alive.toNat ||| put 12 4 u.ukind.toNat |||
    put 11 1 (b2n u.more) ||| put 0 8 (unitWords u)

/-- A unit as it leaves on MISO: header, order stamp, body, and the CRC-32 over all of them (R333, R347). -/
def unitImage (u : OutUnit) : List Word :=
  let w := unitHeader u :: u.order :: u.body
  w ++ [crcWords w]

/-- The header fields of a command frame (R324). -/
def hdrOpc (h : Word) : Nat := fld h 31 24
def hdrTag (h : Word) : BitVec 4 := BitVec.ofNat 4 (fld h 23 20)
def hdrAlive (h : Word) : BitVec 4 := BitVec.ofNat 4 (fld h 19 16)
def hdrOrdered (h : Word) : Bool := bitAt h 15
def hdrSnap (h : Word) : Bool := bitAt h 14
def hdrQuiet (h : Word) : Bool := bitAt h 13
def hdrLen (h : Word) : Nat := fld h 12 0 + 1

/-- Places the records of a queue hold: an action record counts as two (R147, R338). -/
def recordPlaces (q : List OutUnit) : Nat :=
  (q.map (fun u => if u.ukind == 1 then 1 else if u.ukind == 6 then 2 else 0)).sum

/-- Command places in use in a port's queue (R358). -/
def commandPlaces (q : List OutUnit) : Nat := (q.filter isCommandUnit).length

/-- The other units of a queue, in command and reserved places (R342, R359). -/
def otherUnits (q : List OutUnit) : Nat := (q.filter (fun u => !isRecord u)).length

/-- A port's commands in flight, from commit to the queueing of the final reply (R357). -/
def portInFlight (s : State) (h : HostPort) : Nat :=
  (s.car.entering.filter (fun e => e.port == h && !e.turned)).length + (s.car.slots.filter (fun x => x.port == h)).length

/-- The device's commands in flight (R357). -/
def inFlight (s : State) : Nat := (s.car.entering.filter (fun e => !e.turned)).length + s.car.slots.length

/-- CREDIT (R334, R357). -/
def credit (s : State) (h : HostPort) : Nat :=
  min (16 - portInFlight s h) (Config.deviceLimit s.variant - inFlight s)

/-- The status word (R334). -/
def statusWordOf (s : State) (h : HostPort) : Word :=
  let hi := 128 * b2n (s.boot.primary == h) + 64 * b2n s.hosts[h].irq + 32 * b2n (s.reg (aHp h 3) != 0) +
    16 * b2n (!s.hosts[h].held.isEmpty)
  put 24 8 0xA5 ||| put 16 8 hi ||| put 8 8 (credit s h) ||| put 0 8 ((hi ^^^ credit s h) ^^^ 0xFF)

/-- The announcement word (R334). -/
def announceWord (a : Announce) : Word :=
  let n := (a.units.map unitWords).sum
  put 24 8 0x5A ||| put 16 1 (b2n (a.kind == .replay)) ||| put 8 8 n ||| put 0 8 (n ^^^ 0xFF)

/-- MISO from the E-cycle word 0 is complete: the announcement, then the announced units back to back (R334). -/
def misoUnits (a : Announce) : List Word := announceWord a :: a.units.flatMap unitImage

/-- Word `i` of MISO in the transaction in progress, zeros beyond the announced units; none while SELn is high and the ball
is high-impedance (R319, R334). -/
def misoWord (x : HpSt) (i : Nat) : Option Word := if x.sel then some (x.miso.getD i 0) else none

/-- The longest run of whole units from the head whose total is at most `lim` words (R335). -/
def runPrefix : Nat → List OutUnit → List OutUnit
  | _, [] => []
  | lim, u :: t => if unitWords u ≤ lim then u :: runPrefix (lim - unitWords u) t else []

/-- The units of a run delivered when `nbits` MISO bits are clocked and the run starts at bit `at` (R336). -/
def deliveredIn (nbits : Nat) : Nat → List OutUnit → List OutUnit
  | _, [] => []
  | start, u :: t =>
    if start + 32 * unitWords u ≤ nbits then u :: deliveredIn nbits (start + 32 * unitWords u) t else []

/-- The kind of a transaction by its word 0 (R322, R323). -/
def linkKind (w0 : Word) : LinkKind :=
  if 6 ≤ popCount 8 (fld w0 31 24) then (if 8 ≤ popCount 16 (fld w0 15 0) then .drain else .replay) else .frame

/-- The most words of units an announcement may name (R335). -/
def announceLimit (w0 : Word) : Nat :=
  match linkKind w0 with
  | .frame => if hdrLen w0 < 64 then 0 else min 254 (hdrLen w0 / 32 - 2)
  | _ => 254

/-- A unit queued at the tail of a port's queue (R333). -/
def queueUnit (s : State) (h : HostPort) (u : OutUnit) : State :=
  s.updHost h (fun x => { x with queue := x.queue ++ [{ u with queuedAt := s.ecyc }] })

/-- Two units of a kind that keeps one undelivered unit: link record, lease notice, Barker record of one port (R359). -/
def sameRecord (a b : OutUnit) : Bool :=
  a.ukind == b.ukind && (a.ukind != 2 || a.body.take 1 == b.body.take 1)

/-- A waiting record updated by a new one: a lease notice keeps the quads of both and names the latest revoker; the others
are replaced (R328, R359). The order stamp is the new one's (R348). -/
def mergeRecord (old new : OutUnit) : OutUnit :=
  let body := if old.ukind == 4 then
      [put 30 2 (fld (new.body.headD 0) 31 30) ||| put 0 4 (fld (old.body.headD 0) 3 0 ||| fld (new.body.headD 0) 3 0)]
    else new.body
  { old with status := new.status, tag := new.tag, alive := new.alive, order := new.order, body := body,
             queuedAt := new.queuedAt }

/-- The first unit of a list that a record updates, updated. -/
def mergeFirst : List OutUnit → OutUnit → List OutUnit
  | [], _ => []
  | v :: t, u => if sameRecord v u then mergeRecord v u :: t else v :: mergeFirst t u

/-- The units of the announcement in progress that still stand at the head of the queue. -/
def announcedCount (x : HpSt) : Nat :=
  match x.ann with
  | some a => if a.kind = .replay then 0 else a.units.length
  | none => 0

/-- A link record, lease notice or Barker record arises: queued, updated in place, or held aside while an announced copy is
on MISO (R328, R336, R359). -/
def queueRecord (s : State) (h : HostPort) (u : OutUnit) : State :=
  let x := s.hosts[h]
  let u := { u with order := s.car.lastStamp, queuedAt := s.ecyc }
  if x.queue.any (fun v => sameRecord v u) then
    if (x.queue.take (announcedCount x)).any (fun v => sameRecord v u) then
      s.updHost h (fun x => { x with
        aside := if x.aside.any (fun v => sameRecord v u) then mergeFirst x.aside u else x.aside ++ [u] })
    else s.updHost h (fun x => { x with queue := mergeFirst x.queue u })
  else queueUnit s h u

/-- What was held aside is applied when SELn rises, in the E-cycle `e` with the most recent stamp `k`: in place where the
announced copy was not delivered, else as a new unit at the tail (R336, R348). -/
def applyAside (k : Word) (e : Nat) (x : HpSt) : HpSt :=
  (x.aside.map (fun u => { u with order := k, queuedAt := e })).foldl (fun y u =>
    if y.queue.any (fun v => sameRecord v u) then { y with queue := mergeFirst y.queue u }
    else { y with queue := y.queue ++ [u] }) { x with aside := [] }

/-- SELn rises after `nbits` bits, in the E-cycle `e` with the most recent stamp `k`: announced units clocked out whole are
delivered and become the held units (R336). -/
def selRise (k : Word) (e : Nat) (x : HpSt) (nbits : Nat) : HpSt :=
  let x := { x with sel := false, stretch := none, ready := true, miso := [] }
  match x.ann with
  | none => applyAside k e x
  | some a =>
    if a.kind = .replay then applyAside k e { x with ann := none }
    else
      let d := deliveredIn nbits 64 a.units
      applyAside k e { x with
        ann := none, held := d, queue := x.queue.drop d.length,
        discards := if d.any (fun u => u.ukind == 3) then 0 else x.discards }

/-- A link record's body (R328). -/
def linkBody (reason discards nbits : Nat) (w0 : Word) : List Word :=
  [put 28 4 reason ||| put 16 12 (satTo 4095 discards) ||| put 0 14 (satTo 16383 nbits), if nbits < 32 then 0 else w0]

/-- A frame is discarded: HP_DISCARD counts and the port's link record is queued or updated (R327, R328). -/
def discard (s : State) (h : HostPort) (reason nbits : Nat) (w0 : Word) : State :=
  let s := bump s (aHp h 5)
  let s := s.updHost h (fun x => { x with discards := x.discards + 1 })
  queueRecord s h { status := 0x20, tag := 0, alive := 0, ukind := 3, more := false, order := 0,
                    body := linkBody reason s.hosts[h].discards nbits w0, queuedAt := 0 }

/-- The verdict of a bound CRC unit on a frame that reached the CRC row (R454). -/
def boundVerdict (s : State) (h : HostPort) (ok : Bool) : State :=
  if ok then s.setRegFld (aCu h.val 8) 2 0 1
  else bump (s.setReg (aCu h.val 8) (setBit (setFld (s.reg (aCu h.val 8)) 2 0 2) 8 true)) (aCu h.val 9)

/-- A frame passes rows 1 to 4 of R326 and is committed: ALIVE_LAST, HP_FRAMES, and its way into the Carousel; past the
limits it is turned away (R330, R357). -/
def commitFrame (s : State) (h : HostPort) (w0 : Word) (bits : List Bool) : State :=
  let n := hdrLen w0 - 64
  let pay := (bits.drop 32).take n
  let turned := decide (16 ≤ portInFlight s h ∨ Config.deviceLimit s.variant ≤ inFlight s)
  let s := bump s (aHp h 4)
  let s := s.updHost h (fun x => { x with aliveLast := some (hdrAlive w0) })
  { s with car := { s.car with entering := s.car.entering ++
      [{ port := h, hdr := w0, payload := packBits (n / 32) pay, extra := n % 32, commitAt := s.ecyc, turned := turned }] } }

/-- A DUP unit of the port waits, queued or due (R332). -/
def dupWaiting (x : HpSt) : Bool := x.queue.any isDup || x.dupOf.isSome || x.dupWait

/-- A repeat: it counts, and one DUP unit becomes due if none waits, of the command the port committed last (R331, R332). -/
def repeatFrame (s : State) (h : HostPort) : State :=
  let s := bump s (aHp h 6)
  if dupWaiting s.hosts[h] then s
  else s.updHost h (fun x =>
    if x.last.isNone || s.car.entering.any (fun e => e.port == h) then { x with dupWait := true } else { x with dupOf := x.last })

/-- The judgement of a command frame by the first row of R326 that applies; the port's CRC unit has run over all of its bits
(R325, R454). -/
def judgeFrame (s : State) (h : HostPort) (nbits : Nat) (mosi : List Word) : State :=
  let w0 := mosi.headD 0
  let bits := (wordsBits mosi).take nbits
  let run := crc32 bits
  let s := s.setReg (aCu h.val 4) (BitVec.ofNat 32 run)
  if nbits < 64 ∨ hdrLen w0 < 64 then discard s h 1 nbits w0
  else if nbits ≠ hdrLen w0 then discard s h 2 nbits w0
  else
    let s := boundVerdict s h (run == 0)
    if run ≠ 0 then discard s h 3 nbits w0
    else if s.hosts[h].aliveLast = some (hdrAlive w0) then repeatFrame s h
    else commitFrame s h w0 bits

/-- The oldest undelivered record's queueing E-cycle. -/
def oldestRecord (q : List OutUnit) : Option Nat := (q.find? isRecord).map (·.queuedAt)

/-- The IRQn condition but for the age of records (R338). REC_THR acts as 1 where it is 0 (R342). -/
def irqCondCount (s : State) (h : HostPort) : Bool :=
  let c := s.reg (aHp h 0)
  let q := s.hosts[h].queue
  (bitAt c 0 && q.any (fun u => !isRecord u)) ||
    (bitAt c 1 && decide (max 1 (fld c 15 4) ≤ recordPlaces q))

/-- The E-cycle from which the oldest record's age asserts IRQn (R338). -/
def irqAgeAt (s : State) (h : HostPort) : Option Nat :=
  let c := s.reg (aHp h 0)
  if bitAt c 1 && fld c 23 16 != 0 then (oldestRecord s.hosts[h].queue).map (· + 24576 * fld c 23 16) else none

/-- The IRQn condition (R338). -/
def irqCond (s : State) (h : HostPort) : Bool :=
  irqCondCount s h || (match irqAgeAt s h with | some e => decide (e ≤ s.ecyc) | none => false)

/-- The IRQn condition of a port came to hold, or ceased to, in the E-cycle `e`: IRQn follows that change in its fourth
E-cycle (R338). -/
def irqChange (e : Nat) (b : Bool) (x : HpSt) : HpSt :=
  if x.irqWas = b then x else { x with irqWas := b, irqDue := x.irqDue ++ [(e, b)] }

/-- The end of an E-cycle as IRQn sees it (R338). -/
def irqWatch (s : State) (h : HostPort) : State := s.updHost h (irqChange s.ecyc (irqCond s h))

/-- The E-cycles that pass unseen before the E-cycle `e`: the oldest record may come of age in one of them (R338). -/
def irqAging (s : State) (e : Nat) (h : HostPort) : State :=
  match irqAgeAt s h with
  | some t => if s.ecyc < t ∧ t < e then s.updHost h (irqChange t true) else s
  | none => s

/-- The DUP unit of a finished command (R331). -/
def dupUnitOf (l : LastCmd) : OutUnit :=
  match l.first with
  | some u =>
    { u with status := 0x21, more := false, ukind := 0,
             body := (put 0 8 l.status.toNat ||| put 8 1 (b2n (l.multi || decide (250 < u.body.length)))) ::
               u.body.take 250 }
  | none =>
    { status := 0x21, tag := hdrTag l.hdr, alive := hdrAlive l.hdr, ukind := 0, more := false, order := l.stamp,
      body := [put 0 8 l.status.toNat], queuedAt := 0 }

/-- The place directly behind the last unit of a command that still waits, and not inside the announced run (R331, R336). -/
def insertBehind (x : HpSt) (stamp : Word) (u : OutUnit) : List OutUnit :=
  let own (v : OutUnit) : Bool := isCommandUnit v && v.order == stamp
  let back := (x.queue.reverse.takeWhile (fun v => !own v)).length
  if x.queue.any own then
    let n := max (x.queue.length - back) (announcedCount x)
    x.queue.take n ++ u :: x.queue.drop n
  else x.queue ++ [u]

end Sys2Proof.Machine
end

