-- ==== Sys2Proof/Machine/Flags.lean ====
section
/-! DEFINITION. The status codes of R369, the sticky flags of SYS_ERR (R417), the DETAIL word (R371) and the first-failing
rule of the dispatch checks (R346, R368). -/

namespace Sys2Proof.Machine

/-- Status codes (R369). -/
def stOk : BitVec 8 := 0x00
def stPartial : BitVec 8 := 0x02
def stBadOpcode : BitVec 8 := 0x10
def stBadLength : BitVec 8 := 0x11
def stBadParam : BitVec 8 := 0x12
def stNotLeased : BitVec 8 := 0x13
def stBusyLease : BitVec 8 := 0x14
def stAbsent : BitVec 8 := 0x15
def stNoReply : BitVec 8 := 0x30
def stAirCrc : BitVec 8 := 0x31
def stCollision : BitVec 8 := 0x32
def stFieldLost : BitVec 8 := 0x33
def stIndeterminate : BitVec 8 := 0x34
def stCaptured : BitVec 8 := 0x35
def stFalseStart : BitVec 8 := 0x36
def stLimit : BitVec 8 := 0x40
def stCeiling : BitVec 8 := 0x41
def stDirFull : BitVec 8 := 0x50
def stTimeout : BitVec 8 := 0x60
def stInternal : BitVec 8 := 0x7F

/-- Bits of SYS_ERR (R417). -/
def errRange : Nat := 0
def errRing : Nat := 1
def errUnlock : Nat := 2
def errLockTo : Nat := 3
def errCut : Nat := 4
def errAntFault : Nat := 5
def errCalFail : Nat := 6
def errDirEcc : Nat := 7
def errDirFull : Nat := 8
def errCntSat : Nat := 9
def errInternal : Nat := 10

/-- One dispatch check: whether it fails, with what status, and the PWORD it reports (R368, R371). -/
structure Chk where
  bad : Bool
  st : BitVec 8
  pw : Nat
  deriving DecidableEq, Repr

/-- The first check that fails gives the status (R368). -/
def firstBad : List Chk → Option Chk
  | [] => none
  | c :: t => if c.bad then some c else firstBad t

/-- A named port, quad or unit is absent (check 4). -/
def absentIf (b : Bool) (pw : Nat) : Chk := { bad := b, st := stAbsent, pw := pw }

/-- A field out of range, a reserved field set, a precondition unmet (check 5). -/
def paramIf (b : Bool) (pw : Nat) : Chk := { bad := b, st := stBadParam, pw := pw }

/-- A lease is missing (check 6). -/
def leaseIf (b : Bool) (pw : Nat) : Chk := { bad := b, st := stNotLeased, pw := pw }

/-- The length check of R367 against the length the opcode and its fields require, with the PWORD of R371: the first
missing word, the first surplus word, or the word a broken payload ends in. -/
def lengthIf (sl : Slot) (need : Nat) : Chk :=
  { bad := sl.payload.length != need || sl.extra != 0, st := stBadLength,
    pw := satTo 255 (1 + min sl.payload.length need) }

/-- The length check of R367 for a length the fields imply, within the opcode's permitted counts. -/
def lengthIn (sl : Slot) (need lo hi : Nat) : Chk :=
  let n := sl.payload.length
  { bad := n != need || decide (need < lo ∨ hi < need) || sl.extra != 0, st := stBadLength,
    pw := satTo 255 (1 + min n (if n < need then need else min need hi)) }

/-- The DETAIL word of a reply (R371). -/
def detailWord (sl : Slot) : Word := put 24 8 sl.pword.toNat ||| put 20 4 sl.wstep.toNat ||| put 0 16 sl.code.toNat

/-- Payload word `i`; 0 where the payload is too short to hold it. -/
def pw (sl : Slot) (i : Nat) : Word := sl.payload.getD i 0

end Sys2Proof.Machine
end

