-- ==== Sys2Proof/Machine/Ecc.lean ====
section
/-! DEFINITION. What the directory SRAM's SECDED logic does (R142), and the errors a scan's reads find as time passes. -/

namespace Sys2Proof.Machine

/-- The handle that never holds a name (R8, R131). -/
def noEntry : Nat := 0x3FFFF

/-- The four handles of a bucket (R131). -/
def handlesOf (b : Nat) : List Nat := [4 * b, 4 * b + 1, 4 * b + 2, 4 * b + 3]

/-- One entry emptied by a double-bit error counts (R60, R142). -/
def countEcc (s : State) : State :=
  if s.dir.eccEmptied < 0xFFFFFFFF then { s with dir := { s.dir with eccEmptied := s.dir.eccEmptied + 1 } }
  else if s.past.contains 0x10001 then s
  else { s with past := 0x10001 :: s.past, cntSat := s.cntSat ++ [s.ecyc], dir := { s.dir with satEcc := true } }

/-- What a read of a bucket does where the SECDED logic finds an error: a single-bit error is corrected, a double-bit error
empties the bucket, and the access goes on (R142). -/
def eccRead (s : State) (bucket : Nat) (err : EccErr) : State :=
  match err with
  | .none => s
  | .single => bump s 0x0102
  | .double =>
    let hs := (handlesOf bucket).filter (fun h => (mfind s.dir.entries h).isSome)
    let s := each hs (fun h t => countEcc { t with dir := { t.dir with entries := mdel t.dir.entries h } }) s
    raise ((bump s 0x0103).setErr errDirEcc) .dirEcc

/-- The E-cycle by which a running scan has read a bucket (R139, R399; log entry 25). -/
def scanReadAt (c : Scan) (b : Nat) : Nat := c.beginAt + 11 + 4 * b + c.paused

/-- A scan's read finds an error: what a double-bit error empties, the scan cannot list (R139, R142). -/
def scanErr (s : State) (x : Nat × EccErr) : State :=
  let s := eccRead s x.1 x.2
  if x.2 = .double then
    { s with dir := { s.dir with scan := s.dir.scan.map (fun c => { c with items := c.items.filter (fun i => i.2 != x.1) }) } }
  else s

/-- The errors a scan finds by reading these buckets, each in its E-cycle (R142). -/
def scanFinds (s : State) (reads : Nat × EccErr → Bool) (at_ : Nat → Nat) : State :=
  match s.dir.scan with
  | none => s
  | some c =>
    each (c.ecc.filter reads) (fun x t => returnTo t (scanErr (backTo t (at_ x.1)) x))
      { s with dir := { s.dir with scan := some { c with ecc := c.ecc.filter (fun x => !reads x) } } }

/-- The errors a scan's reads before the E-cycle `e` find (R139, R142, R358). -/
def scanErrs (s : State) (e : Nat) : State :=
  match s.dir.scan with
  | none => s
  | some c => scanFinds s (fun x => decide (scanReadAt c x.1 < min e (c.pauseFrom.getD e))) (scanReadAt c)

end Sys2Proof.Machine
end

