-- ==== Sys2Proof/Machine/Cut.lean ====
section
/-! DEFINITION. The copy of the registers that reads see (R408): beside the register map, the read-only words made from the
rest of the state, as they stood when the E-cycle began. -/

namespace Sys2Proof.Machine

/-- OWNER of MP_STAT (R463). -/
def ownerCode : Option BusReq → Nat
  | none => 0
  | some (.xfer _) => 1
  | some (.map _) => 2
  | some (.exit _) => 3
  | some (.demand _) => 4
  | some (.spec _) => 5

/-- The addresses of the words that the rest of the state makes: CH_STAT's running delays, MP_STAT's bus and lines, the
capture pair, and HP_STAT and HP_QUEUE of each port. -/
def madeAddrs : List Nat :=
  [0x104C, 0x1802, 0x1C03, 0x1C04, 0x2001, 0x2002, 0x2011, 0x2012, 0x2021, 0x2022, 0x2031, 0x2032]

/-- What the rest of the state puts into one of those words (R54, R342, R441, R463). -/
def madeWord (s : State) (a : Nat) : Word :=
  if a = 0x104C then put 24 8 (s.mw.delays.foldl (fun m d => m ||| 2 ^ d.1) 0)
  else if a = 0x1802 then
    put 0 1 (b2n s.mp.owner.isSome) ||| put 1 3 (ownerCode s.mp.owner) ||| put 5 4 (s.mp.lines.foldl (fun m l => m ||| 2 ^ l.idx) 0)
  else if a = 0x1C03 then BitVec.ofNat 32 s.tb.capNow.toNat
  else if a = 0x1C04 then put 0 16 (s.tb.capNow.toNat / 2 ^ 32) ||| put 16 8 s.tb.capEpoch.toNat ||| put 24 8 s.tb.capPhase.toNat
  else
    let h := four ((a - 0x2000) / 16)
    let x := s.hosts[h]
    if a % 16 = 1 then
      put 0 1 (b2n (s.boot.primary == h)) ||| put 2 1 (b2n x.aliveLast.isSome) |||
        put 4 4 (match x.aliveLast with | some a => a.toNat | none => 0) ||| put 8 1 (b2n x.irq) |||
        put 9 1 (b2n (!x.held.isEmpty)) ||| put 11 5 (portInFlight s h)
    else put 0 13 (recordPlaces x.queue) ||| put 16 7 (otherUnits x.queue) ||| put 24 8 (x.held.map unitWords).sum

/-- That part of a word as reads of this E-cycle see it (R408). -/
def madeView (s : State) (a : Nat) : Word :=
  if s.cut.at_ = s.ecyc then (mfind s.cut.made a).getD (madeWord s a) else madeWord s a

/-- The copy that reads of the E-cycle `e` see: the registers as they stand when it begins (R408). -/
def takeCut (s : State) (e : Nat) : State :=
  { s with ecyc := e, cut := { at_ := e, regs := s.regs, made := madeAddrs.map (fun a => (a, madeWord s a)), more := [], hot := [] } }

/-- A command's own change to one of those words enters the copy (R408). -/
def showMade (s : State) (a : Nat) : State :=
  if s.cut.at_ = s.ecyc then { s with cut := { s.cut with made := mput s.cut.made a (madeWord s a) } } else s

/-- A command's changes to the registers enter the copy that reads of this E-cycle see; with `all`, changes that fell in an
earlier E-cycle do so whole, those of the read-only words among them (R408). -/
def seenBy (s t : State) (all : Bool) : State :=
  if t.cut.at_ ≠ t.ecyc ∨ (all = false ∧ t.regs = s.regs) then t
  else
    let view (m : SMap Word) (a : Nat) : Word := if all then t.reg a else seenWord a (mget resetWord m a) (t.reg a)
    let made (a : Nat) : Bool := all && madeWord s a != madeWord t a
    { t with cut := { t.cut with
        made := (madeAddrs.filter made).foldl (fun m a => mput m a (madeWord t a)) t.cut.made,
        regs := (changedWords s.regs t.regs).foldl (fun m a => mset resetWord m a (view m a)) t.cut.regs } }

/-- A command's own change in this E-cycle: the events it raises wait for the end of the E-cycle, as internal changes that
follow every command's (R355, R426). -/
def inCommand (s : State) (now : Bool) (f : State → State) : State := holdEvents (f (holdEvents s now)) s.mw.hold

/-- A command's state change in its own E-cycle, this one or an earlier one, and what reads see of it from then on (R51,
R408); a full reset has a time of its own. -/
def atTime (s : State) (t : Nat) (f : State → State) : State :=
  let u := inCommand (backTo s t) (decide (t = s.ecyc)) f
  if u.tb.run then seenBy s (returnTo s u) (decide (t < s.ecyc)) else u

/-- The capture of a write, which is a command's own change (R56, R408). -/
def tbWriteCapture (s : State) : State := showMade (showMade (tbCapture s false) 0x1C03) 0x1C04

end Sys2Proof.Machine
end

