-- ==== Sys2Proof/Machine/Carousel.lean ====
section
/-! DEFINITION. The Carousel as operations (12_command_protocol.md): order stamps, executing units, dispatch, refusal,
completion, replies, the snapshot block, and the end of an E-cycle. -/

namespace Sys2Proof.Machine

/-- The most recent order stamp issued plus one (R349). -/
def nextStamp (s : State) : Word := s.car.lastStamp + 1

/-- The quads a quad command's payload names, present ones only (R350, R351). -/
def namedQuads (v : Variant) (opc : Nat) (ws : List Word) : List Quad :=
  match ws with
  | [] => if opc = 0x29 ∧ Config.hasBearing v then presentQuads v else []
  | w0 :: _ =>
    let one (q : Nat) : List Quad := [four q]
    let raw : List Quad :=
      if opc = 0x24 then
        (if bitAt w0 31 then one (fld w0 29 28)
         else [0, 1, 2, 3].filter (fun q : Quad => fld w0 15 0 &&& (15 * 16 ^ q.val) != 0))
      else if opc = 0x25 then one (fld w0 3 0 / 4)
      else if opc = 0x29 then (if Config.hasBearing v then [0, 1, 2, 3] else [])
      else if opc = 0x40 ∨ opc = 0x50 then [0, 1, 2, 3].filter (fun q : Quad => (fld w0 3 0).testBit q.val)
      else one (fld w0 31 30)
    raw.filter (fun q => decide (q.val < Config.quads v))

/-- Whether an opcode is a quad command (R350). -/
def isQuadOp (opc : Nat) : Bool :=
  decide ((0x20 ≤ opc ∧ opc ≤ 0x22) ∨ opc = 0x24 ∨ opc = 0x25 ∨ opc = 0x27 ∨ opc = 0x29 ∨ opc = 0x30 ∨
    (0x40 ≤ opc ∧ opc ≤ 0x46) ∨ (0x50 ≤ opc ∧ opc ≤ 0x55))

/-- An assigned opcode (R376). -/
def isAssigned (opc : Nat) : Bool :=
  isQuadOp opc || decide (opc ≤ 0x06 ∨ (0x10 ≤ opc ∧ opc ≤ 0x12) ∨ opc = 0x23 ∨ opc = 0x26 ∨ opc = 0x28 ∨ opc = 0x31 ∨
    opc = 0x32 ∨ (0x60 ≤ opc ∧ opc ≤ 0x65) ∨ opc = 0x80 ∨ opc = 0x81 ∨ (0x90 ≤ opc ∧ opc ≤ 0x93) ∨ opc = 0xA0 ∨
    opc = 0xA1)

/-- The executing units a command occupies, fixed at its entry (R350, R351). -/
def unitsOf (v : Variant) (opc : Nat) (ws : List Word) : List ExecUnit :=
  if isQuadOp opc then (namedQuads v opc ws).map .quad
  else if opc ≤ 0x05 ∨ opc = 0x28 then [.system]
  else if (0x10 ≤ opc ∧ opc ≤ 0x12) ∨ opc = 0x26 ∨ opc = 0x31 ∨ opc = 0x32 then [.register]
  else if 0x60 ≤ opc ∧ opc ≤ 0x65 then [.directory]
  else if opc = 0x80 ∨ opc = 0x81 then [.memory]
  else if 0x90 ≤ opc ∧ opc ≤ 0x93 then [.journal]
  else if opc = 0xA0 ∨ opc = 0xA1 then [.patch]
  else []

/-- Two units are one executing unit: in ring mode the ring is (R350). -/
def clash (s : State) (a b : ExecUnit) : Bool :=
  match a, b with
  | .quad p, .quad q => (groupOf s p).contains q
  | _, _ => a == b

/-- FIELD_OFF and RESET_DEVICE never wait (R352). -/
def isPreemptive (opc : Nat) : Bool := opc == 0x23 || opc == 0x06

/-- A command in flight has completed in an earlier E-cycle. -/
def isOver (s : State) (x : Slot) : Bool := x.phase == .completed && decide (x.doneAt < s.ecyc)

/-- The slots with stamps earlier than a command's. -/
def earlierSlots (s : State) (k : Word) : List Slot := s.car.slots.takeWhile (fun x => x.stamp != k)

/-- A directory step is in progress: it has started and not yet ended (R136, R138). -/
def dirStepBusy (s : State) : Bool :=
  match s.dir.upd with
  | some u => decide (max u.fitEnd s.dir.freeAt < s.ecyc)
  | none => false

/-- A command may dispatch in this E-cycle (R351 to R353). -/
def mayDispatch (s : State) (sl : Slot) : Bool :=
  let opc := hdrOpc sl.hdr
  s.isReady && sl.phase == .waiting && decide (sl.entryAt + 48 ≤ s.ecyc) &&
    (isPreemptive opc ||
      ((earlierSlots s sl.stamp).all (fun x =>
          isOver s x || !(hdrOrdered sl.hdr || sl.units.any (fun u => x.units.any (clash s u)))) &&
        (!hdrOrdered sl.hdr || s.car.turned.all (fun t =>
          decide (t.entryAt + 1 < s.ecyc ∨ ¬ (t.stamp - sl.stamp).getLsbD 31)))) &&
        (!(opc == 0x60 || opc == 0x62 || opc == 0x63) || !dirStepBusy s))

/-- Check 1: the opcode is unassigned, or primary-only from a secondary port (R340, R362, R368). -/
def opcodeChk (s : State) (sl : Slot) : Chk :=
  let opc := hdrOpc sl.hdr
  let prim := opc == 0x06 || opc == 0x91 || opc == 0x92 || opc == 0x93 || opc == 0xA0 || opc == 0xA1 ||
    (opc == 0x05 && bitAt (pw sl 0) 31)
  { bad := !isAssigned opc || (prim && s.boot.primary != sl.port), st := stBadOpcode, pw := 0 }

/-- Check 2: the TAG is in use on the port (R345). -/
def tagInUse (s : State) (sl : Slot) : Bool :=
  (earlierSlots s sl.stamp).any (fun x =>
    x.port == sl.port && hdrTag x.hdr == hdrTag sl.hdr && !x.tagRefused && !isOver s x)

/-- A command begins to execute in this E-cycle. -/
def startSlot (s : State) (k : Word) : State :=
  updSlot s k (fun x => { x with phase := .executing, dispAt := s.ecyc })

/-- A command that can be held on a synthesiser, on the memory port or on the patch unit: its reply carries WAIT_E (R372). -/
def carriesWait (opc : Nat) : Bool :=
  decide ((0x20 ≤ opc ∧ opc ≤ 0x22) ∨ opc = 0x25 ∨ opc = 0x30 ∨ (0x40 ≤ opc ∧ opc ≤ 0x46) ∨ (0x50 ≤ opc ∧ opc ≤ 0x55) ∨
    opc = 0x80 ∨ opc = 0x81 ∨ opc = 0xA0 ∨ opc = 0xA1)

/-- The body words a command's reply holds whatever its status, where it has found nothing: ST_SELECT's, ST_WRITE's RB, and
the name of a targeted ISO/IEC 18000-63 command (R391, R392, R396). -/
def bareBody (opc : Nat) : List Word :=
  if opc = 0x41 then [0, 0, 0x8003FFFF] else if opc = 0x43 then [0] else if 0x51 ≤ opc ∧ opc ≤ 0x54 then [0, 0, 0] else []

/-- A refusal at dispatch: the command completes at dispatch + 8 with no effect (R346). -/
def refuse (s : State) (k : Word) (c : Chk) (tag : Bool) : State :=
  updSlot (startSlot s k) k (fun x => { x with
    status := c.st, pword := BitVec.ofNat 8 c.pw, tagRefused := tag, refused := true, ended := true,
    hasWait := carriesWait (hdrOpc x.hdr), body := bareBody (hdrOpc x.hdr), effs := [(s.ecyc + 8, .none)] })

/-- A host command of the row `opc` dispatches: checks 1 to 6 in order, then its action (R351, R368). Where no such command
may dispatch, nothing changes. -/
def attempt (s : State) (k : Word) (opcOk : Nat → Bool) (chks : State → Slot → List Chk)
    (act : State → Slot → State) : State :=
  match findSlot s k with
  | none => s
  | some sl =>
    if opcOk (hdrOpc sl.hdr) && mayDispatch s sl then
      if (opcodeChk s sl).bad then refuse s k (opcodeChk s sl) false
      else if tagInUse s sl then refuse s k { bad := true, st := stBadParam, pw := 0 } true
      else
        match firstBad (chks s sl) with
        | some c => refuse s k c false
        | none => seenBy s (inCommand s true (fun t => act (startSlot t k) { sl with phase := .executing, dispAt := s.ecyc })) false
    else s

/-- What a command that started owes: its effects, with the reply it will give. -/
def owe (s : State) (k : Word) (effs : List (Nat × Effect)) (body : List Word) : State :=
  updSlot s k (fun x => { x with effs := effs, body := body })

/-- A command ends in this E-cycle's count `t` with a status found later than dispatch. -/
def setStatus (s : State) (k : Word) (st : BitVec 8) (pwd : Nat) : State :=
  updSlot s k (fun x => { x with status := st, pword := BitVec.ofNat 8 pwd })

/-- The whole host holds these leases (R360). -/
def holdsAll (s : State) (h : HostPort) (qs : List Quad) : Bool := qs.all (fun q => s.quads[q].holder == some h)

/-- A quad counts as leased by a host: in ring mode only when it holds the whole ring (R360). -/
def leased (s : State) (h : HostPort) (q : Quad) : Bool := holdsAll s h (groupOf s q)

/-- One quad's byte of the snapshot block (R364). -/
def snapQuad (s : State) (q : Quad) : Nat :=
  if quadPresent s q then
    let x := s.quads[q]
    let tok := match x.token with | .free => 0 | .control => 1 | .barker => 2 | .lost => 3
    let seq := match s.quads[lead s q].job with
      | some j => j.opcode == 0x40 || j.opcode == 0x50
      | none => false
    (match x.holder with | some h => 128 + 32 * h.val | none => 0) + 16 * b2n (inRing s q) + 4 * tok +
      2 * b2n x.field.isSome + b2n seq
  else 0

/-- Journal rows that are not blank (R488). -/
def journalUsed (s : State) : Nat := s.fuse.rows.length

/-- The block of R364 as of this E-cycle. -/
def snapBlock (s : State) : List Word :=
  let n := tbCount s
  let inf (h : HostPort) : Nat := portInFlight s h
  [ s.car.lastStamp,
    (match s.car.slots with | x :: _ => x.stamp | [] => s.car.lastStamp + 1),
    BitVec.ofNat 32 n,
    BitVec.ofNat 32 (n / 2 ^ 32 % 2 ^ 24),
    put 0 8 (snapQuad s 0) ||| put 8 8 (snapQuad s 1) ||| put 16 8 (snapQuad s 2) ||| put 24 8 (snapQuad s 3),
    put 0 2 s.boot.primary.val ||| put 2 1 (b2n s.ring) ||| put 4 2 s.bark.owner.val |||
      put 6 1 (b2n (s.bark.armed != 0)) ||| put 16 16 s.bark.armed.toNat,
    s.reg aSysErr,
    put 0 19 s.dir.entries.length,
    put 0 5 (inf 0) ||| put 8 5 (inf 1) ||| put 16 5 (inf 2) ||| put 24 5 (inf 3),
    put 0 7 (inFlight s) ||| put 8 7 (Config.deviceLimit s.variant) ||| put 16 7 (journalUsed s),
    put 0 16 s.roundCtr.toNat,
    s.reg (aQuad 0 0), s.reg (aQuad 1 0), s.reg (aQuad 2 0), s.reg (aQuad 3 0) ]

/-- A reply that QUIET suppresses (R366). -/
def isSuppressed (sl : Slot) : Bool := hdrQuiet sl.hdr && sl.status == stOk

/-- Command places the last units of a command need (R358). -/
def unitsOwed (sl : Slot) : Nat := (if isSuppressed sl then 0 else 1 + sl.early.length) + b2n (hdrSnap sl.hdr)

/-- Command places free in a port's queue, with what completed commands are about to queue (R358). -/
def placesFree (s : State) (h : HostPort) : Nat :=
  63 - commandPlaces s.hosts[h].queue -
    ((s.car.slots.filter (fun x => x.port == h && x.phase == .completed)).map unitsOwed).sum

/-- A reply unit of a command: DETAIL, WAIT_E where R372 gives one, then the body given (R347, R371, R372). -/
def replyUnit (sl : Slot) (more : Bool) (b : List Word) : OutUnit :=
  { status := sl.status, tag := hdrTag sl.hdr, alive := hdrAlive sl.hdr, ukind := 0, more := more, order := sl.stamp,
    body := detailWord sl :: ((if sl.hasWait then [BitVec.ofNat 32 sl.waitE] else []) ++ b), queuedAt := 0 }

/-- The units of a command's reply (R348, R366). -/
def replyUnits (sl : Slot) : List OutUnit :=
  if isSuppressed sl then [] else sl.early.map (replyUnit sl true) ++ [replyUnit sl false sl.body]

/-- A unit of a command's reply is queued ahead of its last one, and leaves the slot. -/
def sendEarly (s : State) (k : Word) (sl : Slot) (b : List Word) (rest : List (List Word)) : State :=
  let u := replyUnit sl true b
  let s := queueUnit s sl.port u
  updSlot s k (fun x => { x with early := rest, firstSent := some (x.firstSent.getD u) })

/-- A command completes at `t`, the E-cycle of its last effect, unless its last units find too few places: then it pauses at
that unit boundary (R354, R358). -/
def complete (s : State) (k : Word) (t : Nat) : State :=
  match findSlot s k with
  | none => s
  | some sl =>
    if unitsOwed sl ≤ placesFree s sl.port then
      updSlot s k (fun x => { x with phase := .completed, doneAt := t, paused := false, effs := [], waits := .nothing })
    else
      let s := updSlot s k (fun x => { x with paused := true, ended := true, effs := [], waits := .nothing })
      match sl.early with
      | b :: rest => if isSuppressed sl || placesFree s sl.port = 0 then s else sendEarly s k sl b rest
      | [] => s

/-- A command ends now with a status, whatever it still owed (R121, R362, R436). -/
def endCommand (s : State) (k : Word) (st : BitVec 8) : State := complete (setStatus s k st 0) k s.ecyc

/-- What the port keeps of its last command once that has finished (R330, R331). -/
def noteLast (s : State) (h : HostPort) (stamp : Word) (st : BitVec 8) (first : Option OutUnit) (multi : Bool) : State :=
  let note (l : LastCmd) : LastCmd :=
    if l.stamp = stamp then { l with done := true, status := st, first := first, multi := multi } else l
  s.updHost h (fun x => { x with last := x.last.map note, dupOf := x.dupOf.map note })

/-- A lease notice leaves: every reply it waits behind has been queued, in the E-cycle after the revocation at the earliest
(R363). -/
def noticeDue (s : State) (n : Notice) : Bool := n.behind.isEmpty && decide (n.dueAt ≤ s.ecyc)

/-- The lease notices that leave do so (R363). -/
def flushNotices (s : State) : State :=
  let due := s.car.notices.filter (noticeDue s)
  let s := { s with car := { s.car with notices := s.car.notices.filter (fun n => !noticeDue s n) } }
  each due (fun n t => queueRecord t n.port
    { status := stNotLeased, tag := 0, alive := 0, ukind := 4, more := false, order := 0,
      body := [put 30 2 n.by_.val ||| put 0 4 n.quads.toNat], queuedAt := 0 }) s

/-- The final reply is queued and the slot and TAG are freed; a snapshot unit follows, and the lease notices that waited
behind this reply (R354, R363, R365). -/
def queueReply (s : State) (sl : Slot) : State :=
  let us := replyUnits sl
  let snap : List OutUnit := if hdrSnap sl.hdr then
    [{ status := stOk, tag := hdrTag sl.hdr, alive := hdrAlive sl.hdr, ukind := 5, more := false, order := sl.stamp,
       body := sl.snap.getD (snapBlock s), queuedAt := 0 }] else []
  let s := each (us ++ snap) (fun u t => queueUnit t sl.port u) s
  let first := match sl.firstSent with | some u => some u | none => us.head?
  let s := noteLast s sl.port sl.stamp sl.status (if isSuppressed sl then none else first)
    (sl.firstSent.isSome || decide (2 ≤ us.length))
  let s := { s with car := { s.car with
    slots := s.car.slots.filter (fun x => x.stamp != sl.stamp),
    notices := s.car.notices.map (fun n => { n with behind := n.behind.filter (· != sl.stamp) }) } }
  flushNotices s

/-- The end of an E-cycle: snapshot blocks of commands that completed in it are cut (R365), and IRQn conditions are looked
at (R338). -/
def endCycle (s : State) : State :=
  let s := { s with car := { s.car with slots := s.car.slots.map (fun x =>
    if x.phase == .completed && hdrSnap x.hdr && x.snap.isNone then { x with snap := some (snapBlock s) } else x) } }
  each ([0, 1, 2, 3] : List HostPort) (fun h t => irqWatch t h) s

/-- Stretches of READY that have reached their end are over (R337). -/
def endStretches (s : State) : State :=
  each ([0, 1, 2, 3] : List HostPort) (fun h t => match t.hosts[h].stretch with
    | some e => if e ≤ t.ecyc then t.updHost h (fun x => { x with stretch := none, ready := true }) else t
    | none => t) s

/-- Unsolicited records queued in this E-cycle carry the most recent stamp issued in it (R348). -/
def restamp (s : State) (k : Word) : State :=
  { s with hosts := s.hosts.map (fun x => { x with queue := x.queue.map (fun u =>
    if u.queuedAt = s.ecyc ∧ u.ukind ≠ 0 ∧ u.ukind ≠ 5 then { u with order := k } else u) }) }

/-- An entering frame takes its order stamp and, unless it was turned away, its slot (R349, R351, R357). -/
def enterFrame (s : State) (e : Entering) : State :=
  let k := nextStamp s
  let s := restamp { s with car := { s.car with lastStamp := k } } k
  let l : LastCmd := { stamp := k, hdr := e.hdr, done := false, status := 0, first := none, multi := false }
  let s := s.updHost e.port (fun x => { x with
    last := some l, dupOf := if x.dupWait then some l else x.dupOf, dupWait := false })
  if e.turned then
    { s with car := { s.car with turned := s.car.turned ++
      [{ port := e.port, hdr := e.hdr, stamp := k, entryAt := s.ecyc }] } }
  else
    { s with car := { s.car with slots := s.car.slots ++
      [{ port := e.port, hdr := e.hdr, payload := e.payload, extra := e.extra, stamp := k, entryAt := s.ecyc,
         units := unitsOf s.variant (hdrOpc e.hdr) e.payload, phase := .waiting, tagRefused := false, refused := false,
         ended := false, dispAt := 0, effs := [], waits := .nothing, heldAt := none, paused := false, offWatch := 0, status := stOk,
         pword := 0, wstep := 0, code := 0, waitE := 0, body := [], early := [], firstSent := none, hasWait := false, snap := none, doneAt := 0,
         openSeqs := 0, ends := [],
         sum := { firstRound := none, rounds := 0, tags := 0, nodes := 0, twins := 0, early := 0, dropouts := 0,
                  failedActions := 0, failedInserts := 0, dwells := 0 } }] } }

end Sys2Proof.Machine
end

