-- ==== Sys2Proof/Machine/Geometry.lean ====
section
/-! DEFINITION. The geometry table and its classes (R149, R150). -/

namespace Sys2Proof.Machine

/-- A position in 0.1 mm. -/
structure Pos where
  x : Int
  y : Int
  z : Int
  deriving DecidableEq, Repr

/-- The applied position of a port (R149). -/
def posOf (s : State) (p : Port) : Pos :=
  let xy := s.inUse (aPort p 0x30)
  { x := sext 16 (fld xy 15 0), y := sext 16 (fld xy 31 16), z := sext 16 (fld (s.inUse (aPort p 0x31)) 15 0) }

/-- A port takes part in fits: GVALID of the applied table (R149). -/
def gvalid (s : State) (p : Port) : Bool := bitAt (s.inUse (aPort p 0x31)) 16

/-- The extent of a list of numbers. -/
def extent : List Int → Int
  | [] => 0
  | a :: t => t.foldl max a - t.foldl min a

/-- The difference of two positions. -/
def posSub (a b : Pos) : Pos := { x := a.x - b.x, y := a.y - b.y, z := a.z - b.z }

/-- The cross product. -/
def posCross (a b : Pos) : Pos :=
  { x := a.y * b.z - a.z * b.y, y := a.z * b.x - a.x * b.z, z := a.x * b.y - a.y * b.x }

/-- The inner product. -/
def posDot (a b : Pos) : Int := a.x * b.x + a.y * b.y + a.z * b.z

/-- The pairs of a list, each once. -/
def pairsOf {α : Type} : List α → List (α × α)
  | [] => []
  | a :: t => t.map (fun b => (a, b)) ++ pairsOf t

/-- The differences of the pairs of a list of positions. -/
def edgesOf (ps : List Pos) : List Pos := (pairsOf ps).map (fun e => posSub e.1 e.2)

/-- Every position lies within 20 units of one straight line of the x-z plane: some direction between two of them has
them all in a strip 40 units wide (R150; log entry 17). -/
def onLine (ps : List Pos) : Bool :=
  (ps.map (fun p => p.x)).all (fun a => (ps.map (fun p => p.x)).all (fun b => a == b)) &&
      (ps.map (fun p => p.z)).all (fun a => (ps.map (fun p => p.z)).all (fun b => a == b)) ||
    (edgesOf ps).any (fun d =>
      (d.x != 0 || d.z != 0) &&
        (let w := extent (ps.map (fun p => d.x * p.z - d.z * p.x))
         decide (w * w ≤ 1600 * (d.x * d.x + d.z * d.z))))

/-- Every position lies within 20 units of one plane: some normal has them all in a slab 40 units wide (R150; log entry
17). -/
def onPlane (ps : List Pos) : Bool :=
  let ns := ((pairsOf (edgesOf ps)).map (fun e => posCross e.1 e.2)).filter (fun n => posDot n n != 0)
  ns.isEmpty || ns.any (fun n =>
    let w := extent (ps.map (posDot n))
    decide (w * w ≤ 1600 * posDot n n))

/-- The class of a set of ports: 0 NONE, 1 LINE_X, 2 PLANE_XZ, 3 SOLID (R150). -/
def geomClass (ps : List Pos) : Nat :=
  let ey := extent (ps.map (fun p => p.y))
  let ez := extent (ps.map (fun p => p.z))
  let ex := extent (ps.map (fun p => p.x))
  if 2 ≤ ps.length ∧ ey ≤ 20 ∧ ez ≤ 20 ∧ 20 < ex then 1
  else if 3 ≤ ps.length ∧ ey ≤ 20 ∧ onLine ps = false then 2
  else if 4 ≤ ps.length ∧ onPlane ps = false then 3
  else 0

/-- The staged geometry of every port takes effect together; SYS_BEAR_STAT follows (R149). -/
def geomApply (s : State) : State :=
  let s := each (allPorts.flatMap (fun p => [aPort p 0x30, aPort p 0x31])) (fun a t => t.apply1 a) s
  let on := allPorts.filter (fun p => portPresent s p && gvalid s p)
  s.setReg 0x0141 (put 0 2 (geomClass (on.map (posOf s))) ||| put 4 5 on.length)

/-- GEOM_APPLY: a write of 1 to SYS_BEAR_CTRL.GEOM_APPLY; the CX-0416 has no such register (R149, R406). -/
def execGeomApply (s : State) : Host.Outcome State Fault Refusal :=
  .next (if s.tb.run && Config.hasBearing s.variant then geomApply s else s)

end Sys2Proof.Machine
end

