-- ==== Sys2Proof/Machine/Fuses.lean ====
section
/-! DEFINITION. Journal rows, their classes and what they give (R485, R486, R488). -/

namespace Sys2Proof.Machine

/-- The CRC-16 of R69 over bits. -/
def crc16 (bs : List Bool) : Nat := crcFold 16 0x1021 0xFFFF bs

/-- A row's words in order. -/
def rowWords (r : JRow) : List Word := [r.w0, r.w1, r.w2, r.w3]

/-- SETTING of a row (R486). -/
def rowSetting (r : JRow) : Nat := fld r.w2 31 28

/-- A row is valid (R488). -/
def rowValid (r : JRow) : Bool :=
  crc16 (wordsBits [r.w0, r.w1, r.w2]) == fld r.w3 15 0 && decide (1 ≤ rowSetting r ∧ rowSetting r ≤ 3)

/-- A row is blank (R488). -/
def rowBlank (r : JRow) : Bool := r.w0 == 0 && r.w1 == 0 && r.w2 == 0 && r.w3 == 0

/-- Spoiled rows (R488). -/
def spoiledRows (s : State) : Nat := (s.fuse.rows.filter (fun r => !rowValid r.2)).length

/-- The allowance of a setting (R485). -/
def allowance (setting : Nat) : Nat := if setting = 1 then 8 else 16

/-- What remains of a setting's allowance: every row that names it spends one, valid or spoiled (R488). -/
def leftOf (s : State) (setting : Nat) : Nat :=
  allowance setting - (s.fuse.rows.filter (fun r => rowSetting r.2 == setting)).length

/-- The value a setting has from the journal: the valid record in the highest row (R488). -/
def journalValue (s : State) (setting : Nat) : Option Word :=
  ((s.fuse.rows.filter (fun r => rowValid r.2 && rowSetting r.2 == setting)).getLast?).map (fun r => r.2.w0)

/-- The first row that is not used: rows are written in ascending order (R485). -/
def nextRow (s : State) : Nat := match s.fuse.rows.getLast? with | some r => r.1 + 1 | none => 0

/-- The record a journalled command writes, stamped with the count `n` at the start of its programming (R57, R486). -/
def journalRecord (setting : Nat) (port : HostPort) (v : Word) (n : Nat) : JRow :=
  let w1 : Word := BitVec.ofNat 32 n
  let w2 := put 28 4 setting ||| put 24 2 port.val ||| put 16 8 (n / 2 ^ 48) ||| put 0 16 (n / 2 ^ 32)
  { w0 := v, w1 := w1, w2 := w2, w3 := put 0 16 (crc16 (wordsBits [v, w1, w2])) }

/-- The row in programming, once its programming has begun (R487, R491). -/
def rowBusy (s : State) : Option Prog :=
  match s.boot.prog with
  | some p => if p.beginAt ≤ s.ecyc then some p else none
  | none => none

end Sys2Proof.Machine
end

