-- ==== Sys2Proof/Machine/Reset.lean ====
section
/-! DEFINITION. Entering full reset (R419, R465, R469) and what it leaves of a journal row in programming (R489). -/

namespace Sys2Proof.Machine

/-- The bits of a row programmed when `e` E-cycles of its programming have passed: those of every stage that is over, and
a free choice of those of the stage in progress (R487, R489; log entry 6). -/
def programmed (r : JRow) (e : Nat) (part : BitVec 32) : JRow :=
  let n := e / 49152
  let m (k : Nat) : Word := if k < n then 0xFFFFFFFF else if k = n then part else 0
  { w0 := r.w0 &&& m 1, w1 := r.w1 &&& m 2, w2 := r.w2 &&& ((m 0 &&& 0xF0000000) ||| (m 3 &&& 0x0FFFFFFF)),
    w3 := r.w3 &&& m 4 }

/-- The fuses as a full reset leaves them (R489). -/
def fusesAfter (s : State) : FuseSt :=
  match rowBusy s with
  | none => s.fuse
  | some p =>
    let r := programmed p.rec_ (s.ecyc - p.beginAt) (Config.journalBits s.free)
    if rowBlank r then s.fuse else { s.fuse with rows := mput s.fuse.rows p.row r }

/-- Rank of a cause (R419). -/
def causeRank : Cause → Nat
  | .powerOn => 3
  | .refclk => 2
  | .resetn => 1
  | .resetDevice => 0

/-- A full reset is in progress, from its entry until boot begins (R419). -/
def inFullReset (s : State) : Bool := s.boot.stage == .held || s.boot.stage == .released

/-- The device enters full reset: everything but the fuses takes its reset value; a cause that meets a reset in progress
replaces the recorded one only from a higher rank (R419, R469). The commands still waiting in the model's queue stay. -/
def enterReset (s : State) (c : Cause) (h : HostPort) : State :=
  let keep := inFullReset s && decide (causeRank c ≤ causeRank s.boot.cause)
  let by_ : HostPort := if c = .resetDevice then h else 0
  { (State.inReset (fusesAfter s) (if keep then s.boot.cause else c) (if keep then s.boot.causeBy else by_)) with
    pending := s.pending, free := s.free + 1, supply := s.supply }

end Sys2Proof.Machine
end

