-- ==== Sys2Proof/Machine/Crc.lean ====
section
/-! DEFINITION. The general-purpose CRC units CU4 to CU7 (R455 to R461) and the rows that drive them. -/

namespace Sys2Proof.Machine

/-- Width of a unit's CRC with a CU_CFG (R455). -/
def cuWidthOf (cfg : Word) : Nat := fld cfg 4 0 + 1

/-- The low `w` bits of a number in reverse order. -/
def reflect : Nat → Nat → Nat
  | 0, _ => 0
  | w + 1, v => b2n (v.testBit 0) * 2 ^ w + reflect w (v / 2)

/-- The result for a running value under the configuration in use (R455). -/
def cuResult (s : State) (u : Nat) (run : Word) : Word :=
  let cfg := s.inUse (aCu u 3)
  let w := cuWidthOf cfg
  let r := run.toNat % 2 ^ w
  BitVec.ofNat 32 ((if bitAt cfg 6 then reflect w r else r) ^^^ ((s.inUse (aCu u 2)).toNat % 2 ^ w))

/-- CU_RUN's bits below a width replaced; those above read back as written (R455). -/
def cuRun (w : Nat) (old : Word) (run : Nat) : Word := BitVec.ofNat 32 (old.toNat / 2 ^ w * 2 ^ w + run % 2 ^ w)

/-- run changes, and CU_RESULT with it (R455). -/
def cuSet (s : State) (u : Nat) (v : Word) : State := (s.setReg (aCu u 4) v).setReg (aCu u 5) (cuResult s u v)

/-- The configuration in use becomes the written one: with the next bit fed (R460). -/
def cuConfigure (s : State) (u : Nat) : State := ((s.apply1 (aCu u 0)).apply1 (aCu u 2)).apply1 (aCu u 3)

/-- The bits one window word feeds, in order (R456). -/
def cuFeedBits (cfg v : Word) : List Bool :=
  let part := fld cfg 12 8 + 1
  if bitAt cfg 5 then
    let n := max 1 (part / 8)
    ([24, 16, 8, 0].take n).flatMap (fun lo => (bitsMsb 8 (fld v (lo + 7) lo)).reverse)
  else (bitsMsb 32 v.toNat).take part

/-- The alive capture as one bit is fed at a position of the frame (R458). -/
def cuCapture (cfg alive : Word) (pos : Nat) (b : Bool) : Word :=
  let ofs := fld cfg 28 16
  if bitAt cfg 29 && decide (ofs ≤ pos ∧ pos < ofs + 4) then
    setFld (setBit alive (11 - (pos - ofs)) b) 14 12 (min 4 (fld alive 14 12 + 1))
  else alive

/-- One bit fed to a unit: the configuration in use, the running value with its result, CU_BITS and the alive capture (R455,
R456, R458, R460). -/
def cuFeedBit (u : Nat) (b : Bool) (s : State) : State :=
  let s := cuConfigure s u
  let cfg := s.reg (aCu u 3)
  let w := cuWidthOf cfg
  let bits := s.reg (aCu u 10)
  let old := s.reg (aCu u 4)
  let s := s.setReg (aCu u 11) (cuCapture cfg (s.reg (aCu u 11)) bits.toNat b)
  let s := cuSet s u (cuRun w old (crcStep w (s.reg (aCu u 0)).toNat (old.toNat % 2 ^ w) b))
  s.setReg (aCu u 10) (if bits = 0xFFFFFFFF then bits else bits + 1)

/-- One word written to a unit's data window (R456). -/
def cuFeed (s : State) (u : Nat) (v : Word) : State := each (cuFeedBits (s.reg (aCu u 3)) v) (fun b t => cuFeedBit u b t) s

/-- A write of 1 to CU_CTRL.START: run takes INIT over the width as written (R455, R457; log entry 11). -/
def cuStart (s : State) (u : Nat) : State :=
  let s := (cuSet s u (cuRun (cuWidthOf (s.reg (aCu u 3))) (s.reg (aCu u 4)) (s.reg (aCu u 1)).toNat)).setReg (aCu u 10) 0
  (s.setRegFld (aCu u 11) 14 12 0).setRegFld (aCu u 8) 2 0 0

/-- The verdict of a check under the configuration in use: the first row of R457 that applies, with the alive rule of R458
(R460). -/
def cuVerdict (s : State) (u : Nat) (v : Word) : Nat :=
  let cfg := s.inUse (aCu u 3)
  let w := cuWidthOf cfg
  let a := s.reg (aCu u 11)
  let seen := fld a 11 8
  let last := fld a 3 0
  if (s.reg (aCu u 5)).toNat % 2 ^ w ≠ v.toNat % 2 ^ w then 2
  else if bitAt cfg 29 && decide (fld a 14 12 < 4) then 5
  else if bitAt cfg 29 && bitAt a 4 then
    (if seen = last then 3 else if bitAt cfg 30 && seen != (last + 1) % 16 then 4 else 1)
  else 1

/-- A write to CU_CHECK closes the frame (R457, R458). -/
def cuCheck (s : State) (u : Nat) (v : Word) : State :=
  let d := cuVerdict s u v
  let s := s.setRegFld (aCu u 8) 2 0 d
  if d = 1 then
    let a := s.reg (aCu u 11)
    if bitAt (s.inUse (aCu u 3)) 29 then s.setReg (aCu u 11) (setBit (setFld a 3 0 (fld a 11 8)) 4 true) else s
  else bump (s.setRegBit (aCu u 8) 8 true) (aCu u 9)

/-- CU_START (R457). -/
def execCuStart (u : CrcUnit) (s : State) : Host.Outcome State Fault Refusal :=
  .next (if s.tb.run then cuStart s (4 + u.val) else s)

/-- CU_CHECK (R457). -/
def execCuCheck (u : CrcUnit) (v : Word) (s : State) : Host.Outcome State Fault Refusal :=
  .next (if s.tb.run then cuCheck s (4 + u.val) v else s)

/-- CU_DATA_WINDOW: words written to a unit's window, in address order (R456). -/
def execCuDataWindow (u : CrcUnit) (vals : List Word) (s : State) : Host.Outcome State Fault Refusal :=
  .next (if s.tb.run then each vals (fun v t => cuFeed t (4 + u.val) v) s else s)

end Sys2Proof.Machine
end

