-- ==== Sys2Proof/Machine/Chips.lean ====
section
/-! DEFINITION. The spreading codes and the return link's frames as chips (R74 to R81): the sixteen codes, the code sets,
spreading at SF 16 and SF 4, pilots, and what a frame's header and CRC-24 say. -/

namespace Sys2Proof.Machine

/-- The codes C0 to C15; chip 0, sent first, is bit 15 (R74). -/
def codeTable : List (BitVec 16) :=
  [0x2E4B, 0x7B1E, 0x1D78, 0x482D, 0x2144, 0x7411, 0x1277, 0x4722,
   0x2EB4, 0x7BE1, 0x1D87, 0x48D2, 0x21BB, 0x74EE, 0x1288, 0x47DD]

/-- The chips of code Ck in the order sent (R74). -/
def codeChips (k : Nat) : List Bool := bitsMsb 16 (codeTable.getD k 0).toNat

/-- A chip as a correlator takes it: chip 1 is +1 (log entry 62). -/
def chipSign (b : Bool) : Int := if b then 1 else -1

/-- CP, CT and CD of a code set, as code numbers (R75). -/
def codeCp (cs : Nat) : Nat := 2 + 3 * (cs % 4)
def codeCt (cs : Nat) : Nat := 3 + 3 * (cs % 4)
def codeCd (cs : Nat) : Nat := 4 + 3 * (cs % 4)

/-- A symbol of a code with a polarity: polarity 1 inverts every chip (R74). -/
def symbolChips (k : Nat) (pol : Bool) : List Bool := (codeChips k).map (fun c => c != pol)

/-- A data symbol at spreading factor 16: one bit on CD (R79). -/
def spread16 (cd : Nat) (b : Bool) : List Bool := symbolChips cd b

/-- A data symbol at spreading factor 4: bit j, bit 0 first, on chips 4j to 4j + 3 of CD (R79). -/
def spread4 (cd : Nat) (bs : List Bool) : List Bool :=
  (List.range 16).map (fun i => (codeChips cd).getD i false != bs.getD (i / 4) false)

/-- Data symbols with the pilots among them: `n` counts data symbols from 1; a pilot follows every seventh, and the last
(R80). -/
def withPilots (ct : Nat) : Nat → List (List Bool) → List (List Bool)
  | _, [] => []
  | _, [x] => [x, symbolChips ct false]
  | n, x :: y :: t =>
    if n % 7 = 0 then x :: symbolChips ct false :: withPilots ct (n + 1) (y :: t) else x :: withPilots ct (n + 1) (y :: t)

/-- Bits in groups of four; `n` bounds the groups. -/
def nibbles : Nat → List Bool → List (List Bool)
  | 0, _ => []
  | n + 1, bs => if bs.isEmpty then [] else bs.take 4 :: nibbles n (bs.drop 4)

/-- A frame reply's chips: preamble, sync word, header, payload and CRC-24 with their pilots (R77 to R81). `bits` are payload
and CRC-24. -/
def frameChips (cs : Nat) (sync : BitVec 16) (hdr : BitVec 8) (bits : List Bool) : List Bool :=
  let data := (bitsMsb 8 hdr.toNat).map (spread16 (codeCd cs)) ++
    (if hdr.getLsbD 4 then (nibbles bits.length bits).map (spread4 (codeCd cs)) else bits.map (spread16 (codeCd cs)))
  (List.replicate 8 (symbolChips (codeCp cs) false)).flatten ++
    (bitsMsb 16 sync.toNat).flatMap (symbolChips (codeCp cs)) ++ (withPilots (codeCt cs) 1 data).flatten

/-- A bit reply's chips: code Cb twice (R76). -/
def bitReplyChips (b : Bool) : List Bool := let c := codeChips (b2n b); c ++ c

/-- A frame's KIND, WORDS and PSF (R78). -/
def kindOf (hdr : BitVec 8) : Nat := hdr.toNat / 32
def wordsOf (hdr : BitVec 8) : Nat := hdr.toNat % 16
def psfOf (hdr : BitVec 8) : Bool := hdr.getLsbD 4

/-- A header that ends its frame at once (R174). -/
def badHeader (hdr : BitVec 8) : Bool :=
  let k := kindOf hdr
  decide (4 < k) || (decide (2 ≤ k) && psfOf hdr) || (decide (k = 0 ∨ k = 2 ∨ k = 3) && wordsOf hdr == 0)

/-- The CRC-24 of a frame passes (R81). -/
def crc24Ok (hdr : BitVec 8) (ws : List (BitVec 16)) (crc : BitVec 24) : Bool :=
  crcFold 24 0x5D6DCB 0xFFFFFF (bitsMsb 8 hdr.toNat ++ ws.flatMap (fun w => bitsMsb 16 w.toNat) ++ bitsMsb 24 crc.toNat) == 0

/-- Data symbols that follow a frame's header (R79). -/
def payloadSymbols (hdr : BitVec 8) : Nat :=
  let bits := 16 * wordsOf hdr + 24
  if psfOf hdr then bits / 4 else bits

/-- Data symbols and pilots of a frame after its sync, in symbol periods (R79, R80). -/
def symbolsAfter (hdr : BitVec 8) : Nat :=
  let n := 8 + payloadSymbols hdr
  n + (n + 6) / 7

end Sys2Proof.Machine
end

