-- ==== Sys2Proof/Machine/Transmit.lean ====
section
/-! DEFINITION. The transmit chain as operations (06_transmit_chain.md): synthesiser power and lock (R193, R197), transmit
codes (R210), what a start mark applies (R205, R207, R210), and the EIRP checker (R215). -/

namespace Sys2Proof.Machine

/-- A bit of a quad's QUAD_SYN_STAT (R219). -/
def synBit (s : State) (q : Quad) (i : Nat) (b : Bool) : State := s.setRegBit (aQuad q 0x01) i b

/-- A command executes on a quad's unit and has more than its reply to give (R346). -/
def runsOn (s : State) (q : Quad) (x : Slot) : Bool :=
  x.phase == .executing && !x.ended && x.units.any (clash s (.quad q))

/-- TSET, and T - Ta over Tb - Ta, for a temperature in 0.01 °C (R210, R219). -/
def tempSet (t : Int) : Nat × Int × Int :=
  if t < -4000 then (0, 0, 1)
  else if t < 0 then (0, t + 4000, 4000)
  else if t < 2500 then (1, t, 2500)
  else if t < 7000 then (2, t - 2500, 4500)
  else if t < 10500 then (3, t - 7000, 3500)
  else (4, 0, 1)

/-- Code of a port's temperature set in force: loaded, or the built-in nominal (R209, R311). -/
def codeOf (s : State) (p : Port) (tset index : Nat) : Nat :=
  match mfind s.power (p.val * 8 + tset) with
  | some x => (x.codes.getD index 0).toNat
  | none => (Config.nominalCode tset index).toNat

/-- The INDEX a port's code is taken at: 8 in a Barker burst (R263), else the one in use. -/
def indexInUse (s : State) (p : Port) : Nat :=
  if s.ports[p].burst.isSome then 8 else fld (s.inUse (aPort p 0x20)) 6 0

/-- The interpolated code of R210, rounded to the nearest, halves upward. -/
def txCode (s : State) (p : Port) (t : Int) : Nat :=
  let x := tempSet t
  let i := indexInUse s p
  let a : Int := codeOf s p x.1 i
  let b : Int := codeOf s p (if x.1 = 4 then 4 else x.1 + 1) i
  ((2 * (a * x.2.2 + (b - a) * x.2.1) + x.2.2) / (2 * x.2.2)).toNat

/-- The code in use of a quad's ports, and TSET and TFRAC, from its temperature; nothing before the first reading (R210,
R295; log entry 14). -/
def applyCodes (s : State) (q : Quad) : State :=
  let w := s.reg (aQuad q 0x08)
  if bitAt w 16 then
    let t := sext 16 (fld w 15 0)
    let x := tempSet t
    let s := each (portsOf q) (fun p u => u.setRegFld (aPort p 0x22) 15 0 (txCode u p t)) s
    s.setReg (aQuad q 0x06)
      (setFld (setFld (s.reg (aQuad q 0x06)) 18 16 x.1) 27 20 ((x.2.1 * 256 / x.2.2).toNat % 256))
  else s

/-- A port radiates: carrier on its quad and EN in use (R203, R208). -/
def radiates (s : State) (p : Port) : Bool := s.quads[quadOf p].carrier && bitAt (s.inUse (aPort p 0x21)) 18

/-- A port of a quad whose enable in use or whose carrier may have changed: one that stops restarts its count of fault
readings and, with the carrier kept on the quad, ramps down over 240 E-cycles; one that starts has its first detector
reading after 4,096 E-cycles (R251, R257, R261). -/
def portTx (s : State) (p : Port) : State :=
  let was := bitAt (s.reg (aPort p 0x20)) 8
  let s := if radiates s p then
      (if was then s else s.updPort p (fun x => { x with detAt := s.ecyc + 4096 }))
    else s.updPort p (fun x => { x with
      faultRun := 0,
      downAt := if was && s.quads[quadOf p].carrier && x.burst.isNone then s.ecyc + 240 else x.downAt })
  s.setRegBit (aPort p 0x20) 8 (radiates s p || s.ports[p].burst.isSome)

/-- TX_EN of a quad's ports follows the carrier and EN in use; a port newly on restarts the carrier wait (R87, R220). -/
def refreshTx (s : State) (q : Quad) : State :=
  let new := (portsOf q).any (fun p => radiates s p && !bitAt (s.reg (aPort p 0x20)) 8)
  let s := each (portsOf q) (fun p t => portTx t p) s
  if new then each (groupOf s q) (fun r t => t.updQuad r (fun x => { x with carrierAt := s.ecyc })) s else s

/-- A burst stops: its port no longer radiates, and its code is the one of its own level again (R220, R263). -/
def burstOff (s : State) (p : Port) : State :=
  applyCodes ((s.updPort p (fun x => { x with burst := none, burstCut := none })).setRegBit (aPort p 0x20) 8 (radiates s p)) (quadOf p)

/-- The E-cycle in which a port's burst has ramped down: at its slot's end, or 240 after a mask of zero (R262, R263). -/
def burstEnd (x : PortSt) : Option Nat :=
  x.burst.map (fun e => match x.burstCut with | some c => min (e + 122880) (c + 240) | none => e + 122880)

/-- The Barker burst a port has in progress in this E-cycle (R262, R263). -/
def bursting (s : State) (p : Port) : Bool :=
  match burstEnd s.ports[p] with
  | some e => decide (s.ecyc < e)
  | none => false

/-- A burst in progress is broken off; without its comparison its slot counts as skipped (R40, R196, R264, R265). One broken
off behind its comparison keeps that and does not count, and one that a mask of zero ramps down counts as no slot of an armed
port (DESIGN CHOICE, log entry 93). -/
def breakBurst (s : State) (p : Port) : State :=
  if bursting s p && !s.ports[p].compared && s.ports[p].burstCut.isNone then bump (burstOff s p) (aPort p 0x2F)
  else if s.ports[p].burst.isSome then burstOff s p
  else s

/-- The tokens that a burst of a group holds return to FREE, in one E-cycle (R34, R39). -/
def barkerFree (s : State) (q : Quad) : State :=
  each (groupOf s q) (fun r t => if t.quads[r].token == .barker then
    t.updQuad r (fun x => { x with token := .free, refreshAt := t.ecyc }) else t) s

/-- The bursts at these ports are broken off, and their tokens return to FREE (R39, R196). -/
def breakBurstsAt (s : State) (ps : List Port) : State :=
  each (ps.filter (fun p => s.ports[p].burst.isSome)) (fun p t => barkerFree (breakBurst t p) (quadOf p)) s

/-- No port that a synthesiser serves goes on bursting: those of its group, or of its quad alone where it is no lead
(R196, R201). -/
def breakBursts (s : State) (q : Quad) : State :=
  breakBurstsAt s (if lead s q == q then groupPorts s q else portsOf q)

/-- A synthesiser starts a lock attempt in this E-cycle; no port it serves radiates meanwhile (R193, R196). -/
def beginLock (s : State) (q : Quad) : State :=
  let s := (breakBursts s q).updQuad q (fun x => { x with
    syn := { x.syn with lockFrom := some s.ecyc, timedOut := false, relock := false } })
  synBit (synBit s q 0 false) q 1 true

/-- Powered down: LOCKED reads 0, and no port it served radiates (R196, R197). -/
def powerDown (s : State) (q : Quad) : State :=
  let s := (breakBursts s q).updQuad q (fun x =>
    { x with syn := { x.syn with powered := false, lockFrom := none, timedOut := false, relock := false } })
  synBit (synBit s q 0 false) q 1 false

/-- Powered up; with a channel it locks to that channel (R197). -/
def powerUp (s : State) (q : Quad) : State :=
  let s := s.updQuad q (fun x => { x with syn := { x.syn with powered := true } })
  if bitAt (s.reg (aQuad q 0x00)) 26 then beginLock s q else s

/-- The synthesiser of a group has to be powered (R197). -/
def synWanted (s : State) (q : Quad) : Bool :=
  (groupOf s q).any (fieldIsOn s) ||
    (bitAt (s.reg (aQuad q 0x00)) 26 && ([0, 1, 2, 3] : List HostPort).any (fun h => leased s h q)) ||
    s.car.slots.any (fun x => (hdrOpc x.hdr == 0x20 || hdrOpc x.hdr == 0x21) && x.status == stOk && runsOn s q x) ||
    s.quads[q].syn.barker || s.quads[q].syn.juggler

/-- Every synthesiser powered or not by R197; ring slaves are powered down (R201). -/
def powerSynths (s : State) : State :=
  each (presentQuads s.variant) (fun q t =>
    let want := lead t q == q && synWanted t q
    if want && !t.quads[q].syn.powered then powerUp t q
    else if !want && t.quads[q].syn.powered then powerDown t q
    else t) s

/-- Registers that a start mark applies on a port (R205, R210, R249, R294). -/
def markWords (p : Port) : List Nat := [aPort p 0x20, aPort p 0x21, aPort p 0x28, aPort p 0x37]

/-- Levels, rotators, tuner and transmit phases of a quad are in use as written, a tuner setting that waited for a start mark
among them (R205, R210, R249, R294; DESIGN CHOICE, log entry 95). -/
def applyNow (s : State) (q : Quad) : State :=
  refreshTx (applyCodes (each ((portsOf q).flatMap markWords) (fun a t => t.apply1 a) s) q) q

/-- What a start mark on a quad applies: those, and depth and edge (R205, R207, R210, R249). -/
def applyMark (s : State) (q : Quad) : State := applyNow (s.apply1 (aQuad q 0x04)) q

/-- A round runs on a quad's group. -/
def roundRuns (s : State) (q : Quad) : Bool :=
  match s.quads[lead s q].job with
  | some j => j.inRound
  | none => false

/-- 10 ^ (j / 80) in units of 10 ^ -18, rounded down, for j = 0 to 79: the amplitude of j quarters of a dB. -/
def ampTable : List Nat :=
  [ 1000000000000000000, 1029200527194428169, 1059253725177288878, 1090184492385127645,
    1122018454301963435, 1154781984689458179, 1188502227437018437, 1223207119049931548,
    1258925411794167210, 1295686697517019472, 1333521432163324025, 1372460961007561968,
    1412537544622754302, 1453784385607661833, 1496235656094433411, 1539926526059491989,
    1584893192461113485, 1631172909227838308, 1678804018122560313, 1727825980507863418 ] ++
  [ 1778279410038922801, 1830206106311056048, 1883649089489800535, 1938652635952207316,
    1995262314968879601, 2053525026457146074, 2113489039836646795, 2175204034019522681,
    2238721138568339611, 2304092976055845607, 2371373705661655261, 2440619068041980328,
    2511886431509580111, 2585234839562190737, 2660725059798809634, 2738419634264361294,
    2818382931264453819, 2900681198693153682, 2985382618917959617, 3072557365267446687 ] ++
  [ 3162277660168379331, 3254617834980458775, 3349654391578276595, 3447466065731493806,
    3548133892335754584, 3651741272548377058, 3758374042884441673, 3868120546330521757,
    3981071705534972507, 4097321098135415007, 4216965034285822485, 4340102636447438364,
    4466835921509631185, 4597269885308721785, 4731512589614804789, 4869675251658631149,
    5011872336272722850, 5158221650723056738, 5308844442309883522, 5463865498818542127 ] ++
  [ 5623413251903490803, 5787619883491206435, 5956621435290104605, 6130557921498207061,
    6309573444801932494, 6493816315762113151, 6683439175686146083, 6878599123088075983,
    7079457843841379108, 7286181745132277114, 7498942093324558273, 7717915155850124143,
    7943282347242815020, 8175230379436500065, 8413951416451950911, 8659643233600653523,
    8912509381337455299, 9172759353897795847, 9440608762859233803, 9716279515771061741 ]

/-- The amplitude of `x` quarters of a dB over -800 quarters, in units of 10 ^ -18, rounded down. -/
def amp (x : Int) : Nat :=
  let n := (x + 800).toNat
  ampTable.getD (n % 80) 0 * 10 ^ (n / 80)

/-- The level of a port in quarters of a dBm: its table level, or 0 dBm + GEXT in external-PA mode, less ATT (R209, R215). -/
def levelOf (s : State) (ext : Bool) (p : Port) : Int :=
  (if ext then (fld s.boot.ceiling 29 20 : Int) else (fld (s.reg (aPort p 0x20)) 6 0 : Int) - 48) -
    (fld (s.reg (aPort p 0x21)) 17 10 : Int)

/-- The level of a port that a TUNE_PORT with the field off radiates alone, in quarters of a dBm: TUNE_INDEX, ATT 0 (R253). -/
def loneLevel (x : Slot) : Int := (fld (x.payload.headD 0) 14 8 : Int) - 48

/-- The TUNE_PORT that has or is to have a group's field for its port alone: one that still owes its ramp down (R253,
R255). -/
def loneTune (s : State) (q : Quad) : Option Slot :=
  s.car.slots.find? (fun x => hdrOpc x.hdr == 0x25 && runsOn s q x &&
    x.effs.any (fun e => match e.2 with | .rampEnd _ => true | _ => false))

/-- The levels of the ports of a group that would radiate: as its registers stand, or of the one port tuned alone (R215,
R253). -/
def groupLevels (s : State) (q : Quad) : List Int :=
  if fieldIsOn s q && (loneTune s q).isSome then ((loneTune s q).map loneLevel).toList
  else
  (groupOf s q).flatMap (fun r =>
    if fieldIsOn s r then
      ((portsOf r).filter (fun p => bitAt (s.reg (aPort p 0x21)) 18)).map (levelOf s (bitAt (s.reg (aQuad r 0x05)) 17))
    else [])

/-- The checker of R215: the sum of amplitudes against the amplitude EIRP_MAX - GANT allows. Within the 0.001 dB by which
its E may err the verdict is a free value (log entry 7). -/
def admitsLevels (s : State) (ls : List Int) : Bool :=
  let lo := (ls.map amp).sum
  let y := amp ((fld s.boot.ceiling 9 0 : Int) - (fld s.boot.ceiling 19 10 : Int))
  if ls.isEmpty then true
  else if (lo + ls.length * 10 ^ 20) * 10 ^ 18 ≤ y * 999884877372468608 then true
  else if (y + 10 ^ 20) * 1000115135882276683 < lo * 10 ^ 18 then false
  else Config.ceilingEdge s.free ls

/-- The checker admits a group as its registers stand (R215). -/
def admits (s : State) (q : Quad) : Bool := admitsLevels s (groupLevels s q)

/-- The voltage of output PA_BIAS_Qq in volts: 1.500 × PA_BIAS / 1,023 while EXT_PA = 1 as selected, else 0 (R213). -/
def paBiasOut (s : State) (q : Quad) : Ratio :=
  if bitAt (s.reg (aQuad q 0x04)) 12 then { num := 3 * fld (s.reg (aQuad q 0x05)) 9 0, den := 2046 } else { num := 0, den := 1 }

/-- A port's carrier phase in 1/4,096 turn: TXPH, TXOFS and four times the rotator PHASE, as they are in use (R306). -/
def carrierPhase (s : State) (p : Port) : Nat :=
  let w := s.inUse (aPort p 0x37)
  (fld w 11 0 + fld w 27 16 + 4 * fld (s.inUse (aPort p 0x21)) 9 0) % 4096

/-- A beam's entry for a port (R204). -/
def beamEntry (s : State) (b : Nat) (p : Port) : Word := mget (fun _ => 0) s.beams (16 * b + p.val)

/-- A beam enables at least one port of a quad (R128). -/
def beamLoaded (s : State) (b : Nat) (q : Quad) : Bool := (portsOf q).any (fun p => bitAt (beamEntry s b p) 18)

/-- The rotators of a group as a beam sets them: registers written, BEAM and BEAM_APPLIED (R203, R204, R219). -/
def writeBeam (s : State) (q : Quad) (b : Nat) : State :=
  each (groupOf s q) (fun r t =>
    let t := each (portsOf r) (fun p u => u.setReg (aPort p 0x21) (beamEntry s b p &&& 0x0007FFFF)) t
    t.setReg (aQuad r 0x06) (setBit (setFld (t.reg (aQuad r 0x06)) 12 8 b) 13 true)) s

/-- The group would stand admitted with this beam applied (R216). -/
def admitsBeam (s : State) (q : Quad) (b : Nat) : Bool := admits (writeBeam s q b) q

end Sys2Proof.Machine
end

