-- ==== Sys2Proof/Machine/Tuner.lean ====
section
/-! DEFINITION. The tuner search (R254) and what ends it (R255, R256). -/

namespace Sys2Proof.Machine

/-- The search as it goes: the best setting so far with its measurement, and the code its fine trials start from. -/
structure TuneSt where
  set : Word
  best : TuneMeas
  base : Nat
  deriving DecidableEq, Repr

/-- The place of a bank in PORT_TUN_SET, in the search's order C_OUT, C_SER, C_IN (R254, R270). -/
def bankAt (b : Nat) : Nat := if b = 0 then 16 else if b = 1 then 8 else 0

/-- A bank's code in a setting. -/
def bankCode (w : Word) (b : Nat) : Nat := fld w (bankAt b + 5) (bankAt b)

/-- The offset of a fine trial; the order within ± is the model's reading (R254; log entry 20). -/
def fineStep (i : Nat) : Int :=
  if i = 0 then 1 else if i = 1 then -1 else if i = 2 then 2 else if i = 3 then -2 else if i = 4 then 4 else -4

/-- The candidate of step `i`, none where its code lies outside 0 to 63, and the base of its bank (R254). -/
def tuneTrial (t : TuneSt) (i : Nat) : Option Word × Nat :=
  if i = 0 then (some t.set, t.base)
  else if i ≤ 24 then
    let b := (i - 1) / 8
    (some (setFld t.set (bankAt b + 5) (bankAt b) (9 * ((i - 1) % 8))), t.base)
  else
    let j := (i - 25) % 18
    let b := j / 6
    let base := if j % 6 = 0 then bankCode t.set b else t.base
    let c : Int := (base : Int) + fineStep (j % 6)
    (if 0 ≤ c ∧ c ≤ 63 then some (setFld t.set (bankAt b + 5) (bankAt b) c.toNat) else none, base)

/-- One measurement taken into account: a higher return loss wins, a tie keeps the earlier setting (R254). -/
def tuneStep (t : TuneSt) (im : Nat × TuneMeas) : TuneSt :=
  let r := tuneTrial t im.1
  match r.1 with
  | none => { t with base := r.2 }
  | some w =>
    if im.1 = 0 ∨ t.best.rl < im.2.rl then { set := w, best := im.2, base := r.2 } else { t with base := r.2 }

/-- The best setting over the first `n` measurements from a starting setting (R254). -/
def tuneBest (w : Word) (meas : List TuneMeas) (n : Nat) : TuneSt :=
  (((List.range 61).zip meas).take n).foldl tuneStep { set := w, best := { rl := 0, phase := 0 }, base := 0 }

/-- A return loss of 0.01 dB steps in steps of 0.25 dB, to the nearest as the worked example of R269 has it (17.72 dB
reads 71), held at 255 (R251, R270). -/
def rlSteps (rl : Nat) : Nat := satTo 255 ((2 * rl + 25) / 50)

/-- A return loss and a phase in the layout of PORT_ANT_MEAS (R251, R270). -/
def antWord (rl : Nat) (phase : BitVec 8) (valid : Bool) : Word :=
  put 0 8 (rlSteps rl) ||| put 8 8 phase.toNat ||| put 16 1 (b2n valid)

/-- A port's baseline is no longer valid (R268). -/
def dropBase (s : State) (p : Port) : State :=
  (s.updPort p (fun x => { x with base := none })).setRegBit (aPort p 0x2B) 10 false

/-- The setting found is written, in use and as register; the port's baseline is no longer valid (R254, R268). -/
def writeTuned (s : State) (p : Port) (w : Word) : State :=
  dropBase ((s.setReg (aPort p 0x28) w).setUse (aPort p 0x28) w) p

/-- The level in use allows a reading: at the lowest table level, ATT of 7.25 dB or less (R252; log entry 78). -/
def levelReads (s : State) (p : Port) : Bool :=
  decide (fld (s.inUse (aPort p 0x21)) 17 10 ≤ indexInUse s p + 29)

/-- A search begins: its first step measures the setting in use, which a lost field restores (R254, R256). -/
def tuneStart (s : State) (p : Port) : State := s.updPort p (fun x => { x with tuneFrom := s.inUse (aPort p 0x28) })

/-- The end of a whole search: setting, reading and TUNE_POOR, and the reply's words (R255). -/
def tuneEnd (s : State) (k : Word) (p : Port) (meas : List TuneMeas) : State :=
  let t := tuneBest s.ports[p].tuneFrom meas 61
  let poor := decide (t.best.rl < 100 * fld (s.reg (aPort p 0x2A)) 15 12)
  let m := antWord t.best.rl t.best.phase (levelReads s p)
  let s := (writeTuned s p t.set).setReg (aPort p 0x29) m
  let s := if poor then s.setRegBit (aPort p 0x2B) 3 true else s
  updSlot s k (fun x => { x with body := [t.set, m, put 0 1 (b2n poor)] })

/-- The search a command in flight still owes: its port, measurements and end. -/
def searchOf (x : Slot) : Option (Nat × Port × List TuneMeas × Bool) :=
  x.effs.findSome? (fun e => match e.2 with
    | .tuneEnd p meas off => some (e.1, p, meas, off)
    | _ => none)

/-- A search cut short: with the lease lost the best setting found so far is written; with the field lost the setting in
force before the search is restored. A search that has not begun leaves the setting as it is (R256). -/
def tuneCut (s : State) (x : Slot) (leaseLost : Bool) : State :=
  match searchOf x with
  | some (e, p, meas, _) =>
    if x.heldAt.isSome ∨ s.ecyc + 66368 < e ∨ x.effs.any (fun f => f.2 == .tuneStart p) then s
    else if leaseLost then writeTuned s p (tuneBest s.ports[p].tuneFrom meas ((s.ecyc + 66368 - e) / 1088)).set
    else writeTuned s p s.ports[p].tuneFrom
  | none => s

/-- What was written for the next start mark applies at once where no round runs (R205, R210); a group whose port is tuned
alone keeps that port's level to the end of the search. -/
def applyIfIdle (s : State) (q : Quad) : State :=
  if roundRuns s q || (fieldIsOn s q && (loneTune s q).isSome) then s else applyNow s q

end Sys2Proof.Machine
end

