-- ==== Sys2Proof/Machine/Jobs.lean ====
section
/-! DEFINITION. Ending what runs on a group: air commands and round sequences (R121, R354, R374, R389), other commands on
its unit (R38, R362, R436), and the field itself (R36, R195, R208, R217, R429). -/

namespace Sys2Proof.Machine

/-- The three words of a 96-bit name, most significant first. -/
def nameWords (n : Name) : List Word :=
  [BitVec.ofNat 32 (n.toNat / 2 ^ 64), BitVec.ofNat 32 (n.toNat / 2 ^ 32), BitVec.ofNat 32 n.toNat]

/-- The 96-bit name of three words. -/
def nameOf (a b c : Word) : Name := BitVec.ofNat 96 (a.toNat * 2 ^ 64 + b.toNat * 2 ^ 32 + c.toNat)

/-- A round sequence's opcode: ST_ROUND or G_INVENTORY. -/
def isSeqOp (opc : Nat) : Bool := opc == 0x40 || opc == 0x50

/-- An air command's opcode (R374). -/
def isAirOp (opc : Nat) : Bool := decide ((0x40 ≤ opc ∧ opc ≤ 0x46) ∨ (0x50 ≤ opc ∧ opc ≤ 0x55))

/-- The name of the tag a targeted ISO command acts on, 0 where none was singulated (R396). -/
def jobName (j : Job) : Name :=
  match j.tag with
  | some t => t.name
  | none => 0

/-- The body of an air command that ended without its result, after DETAIL and WAIT_E (R391 to R393, R396, R397). -/
def failBody (j : Job) : List Word :=
  if j.opcode = 0x41 then [0, put 0 16 j.roundNo.toNat, 0x8003FFFF]
  else if j.opcode = 0x43 then [0]
  else if j.opcode = 0x46 then List.replicate 6 0
  else if 0x51 ≤ j.opcode ∧ j.opcode ≤ 0x54 then nameWords (jobName j)
  else if j.opcode = 0x55 then List.replicate (4 + (j.g.rbits + 31) / 32) 0
  else []

/-- The hold of R200 ends: its E-cycles join WAIT_E. -/
def endHold (s : State) (k : Word) : State :=
  updSlot s k (fun x => match x.heldAt with
    | some e => { x with heldAt := none, waitE := x.waitE + (s.ecyc - e) }
    | none => x)

/-- The counters of a round sequence's summary changed. -/
def updSum (s : State) (k : Word) (f : Summary → Summary) : State := updSlot s k (fun x => { x with sum := f x.sum })

/-- A group has nothing on the air any more: job, exchange and chains are dropped, and the gains are released (R160). An
exchange that this cuts bars no later start mark and leaves LAST_OUT as it stood (R85, R183; DESIGN CHOICE, log entry 95). -/
def clearAir (s : State) (q : Quad) : State :=
  let s := s.updQuad (lead s q) (fun x => { x with job := none, exch := none, next := none })
  each (groupPorts s q) (fun p t =>
    (t.updPort p (fun x => { x with recv := none, standby := none })).setRegBit (aPort p 0x12) 5 false) s

/-- A round of a group ends: ROUND_END fires, and its count of tags is kept for the next round's E (R121, R126). -/
def roundOver (s : State) (q : Quad) (j : Job) : State :=
  if j.inRound then
    let s := s.updQuad (lead s q) (fun x => { x with
      prevTags := j.tagsRound, job := x.job.map (fun y => { y with inRound := false }) })
    fireQuad s q .roundEnd
  else s

/-- The status of a sequence command over the statuses its quads' sequences ended with (R389). -/
def seqStatus (ends : List (BitVec 8)) : BitVec 8 :=
  if ends.contains stNotLeased then stNotLeased
  else if ends.contains stFieldLost then stFieldLost
  else if ends.contains stPartial then stPartial
  else stOk

/-- The summary words of R389, after WAIT_E. -/
def sumBody (m : Summary) : List Word :=
  let w (n : Nat) : Word := BitVec.ofNat 32 (satTo 0xFFFFFFFF n)
  [ put 16 16 (match m.firstRound with | some r => r.toNat | none => 0) ||| put 0 16 (satTo 0xFFFF m.rounds),
    w m.tags, w m.nodes, w m.twins, w m.early, w m.dropouts, w m.failedActions, w m.failedInserts, w m.dwells ]

/-- A quad's sequence ends with a status; the command's own status follows when its last sequence has ended (R121,
R389). -/
def endSequence (s : State) (q : Quad) (j : Job) (st : BitVec 8) : State :=
  let s := clearAir (roundOver (endHold s j.stamp) q j) q
  updSlot s j.stamp (fun x =>
    let e := x.ends ++ [st]
    { x with openSeqs := x.openSeqs - 1, ends := e, status := seqStatus e })

/-- An ACK that echoes ADDR and DATA, judged by its first two words whatever its WORDS (R100, R101, R112; DESIGN CHOICE, log
entry 72). -/
def echoes (j : Job) (ws : List (BitVec 16)) : Bool := ws.take 2 == [BitVec.ofNat 16 j.st.addr, j.st.data]

/-- What a frame says to a write: an ERROR's code, or the words of an ACK that echoes (R103, R112). -/
def writeAnswer (j : Job) (f : VFrame) : Option (BitVec 16 ⊕ List (BitVec 16)) :=
  match f.rx with
  | .stamet hdr ws _ =>
    if kindOf hdr = 4 then some (.inl (ws.headD 0)) else if kindOf hdr = 2 ∧ echoes j ws = true then some (.inr ws) else none
  | .iso _ _ => none

/-- The first valid frame of an exchange that is an answer to a write (R112); of an ACK and an ERROR in one send the one of
the earlier sync counts (DESIGN CHOICE, log entry 71). -/
def writeReply (j : Job) (x : Exch) : Option (BitVec 16 ⊕ List (BitVec 16)) := x.valid.findSome? (writeAnswer j)

/-- WRITE_STEP as it stands: of G_WRITE 3 from the first symbol of its write on; of ST_WRITE what the answer that its exchange
has by now makes of it (R111, R114, R289). -/
def stepReached (s : State) (q : Quad) (j : Job) : Nat :=
  match j.step, s.quads[lead s q].exch.bind (writeReply j) with
  | .prepare _, some (.inr _) => 2
  | .commit _, some (.inl _) => 2
  | .commit _, some (.inr _) => 4
  | _, _ =>
    match j.opAt with
    | some e => if e ≤ s.ecyc then max 3 j.writeStep else j.writeStep
    | none => j.writeStep

/-- A single air command ends now (R374). -/
def finishAir (s : State) (q : Quad) (j : Job) (st : BitVec 8) (body : List Word) (code : BitVec 16) : State :=
  let n := if j.opcode = 0x43 ∨ j.opcode = 0x52 then stepReached s q j else 0
  let s := clearAir (roundOver (endHold s j.stamp) q j) q
  let s := updSlot s j.stamp (fun x => { x with status := st, body := body, code := code, wstep := BitVec.ofNat 4 n })
  complete s j.stamp s.ecyc

/-- The status of a sequence that a FIELD_OFF ends, with SWEEPS = 0 OK, or PARTIAL where a round of it ended by DWELL, and of
one that ends with `st` (R121). -/
def stopStatus (j : Job) (st : BitVec 8) (off : Bool) : BitVec 8 :=
  if off && j.sweeps == 0 then (if j.cutShort || j.dwellHit then stPartial else stOk) else st

/-- The air command of a group ends because its field or its lease went: `off` for FIELD_OFF and what is treated as one
(R121, R217). -/
def stopJob (s : State) (q : Quad) (st : BitVec 8) (off : Bool) : State :=
  match s.quads[lead s q].job with
  | none => s
  | some j =>
    if isSeqOp j.opcode then endSequence s q j (stopStatus j st off)
    else finishAir s q j st (failBody j) 0

/-- The token of a group set (R34). -/
def setToken (s : State) (q : Quad) (tok : Token) : State :=
  each (groupOf s q) (fun r t => t.updQuad r (fun x => { x with token := tok, refreshAt := s.ecyc })) s

/-- A claimed token returns to the state it had before the claim: LOST, which only a FIELD_ON leaves, or else FREE; a yielded
Barker burst does not resume in its middle (R38, R40, R208, R384; log entry 77). -/
def restoreToken (s : State) (q : Quad) : State :=
  each (groupOf s q) (fun r t => t.updQuad r (fun x => { x with
    token := match x.tokenWas with | .lost => .lost | _ => .free, refreshAt := s.ecyc, cutFrom := none })) s

/-- The control half claims a group: a Barker burst in progress on it stops and counts as skipped, and Barker leaves every
quad of the group until a period begins with its token FREE (R34, R40, R264, R265). -/
def yieldBarker (s : State) (q : Quad) : State :=
  let was := (groupPorts s q).any (bursting s)
  let s := each (groupPorts s q) (fun p t => breakBurst t p) s
  if was then { s with bark := { s.bark with yielded := s.bark.yielded ||| BitVec.ofNat 4 (maskOf (groupOf s q)) } } else s

/-- A group is claimed: each quad's token is remembered, Barker yields, and the tokens are in CONTROL (R33, R40, R208). -/
def claimToken (s : State) (q : Quad) : State :=
  let s := each (groupOf s q) (fun r t => t.updQuad r (fun x => { x with tokenWas := x.token })) s
  setToken (yieldBarker s q) q .control

/-- STEP of a group's ports (R315). -/
def setStep (s : State) (q : Quad) (n : Nat) : State :=
  each (groupPorts s q) (fun p t => t.setRegFld (aPort p 0x32) 18 16 n) s

/-- A receive step's tone stops and the forced gain returns to the AGC (R298, R302). -/
def stepOff (s : State) (q : Quad) : State :=
  let s := each (groupPorts s q) (fun p t => t.setRegFld (aPort p 0x12) 4 0 t.ports[p].gainSaved) s
  (s.setRegFld (aQuad q 0x09) 3 0 0).updQuad q (fun x => { x with jug := { x.jug with stepFrom := none } })

/-- A CAL_RUN RX leaves its group: a step it was in stops, its sequence is dropped, and QUAD_CAL_ACT shows nothing (R302,
R303, R316). -/
def calLeave (s : State) (q : Quad) : State :=
  let q := lead s q
  if s.quads[q].jug.run then
    let s := if s.quads[q].jug.stepFrom.isSome then setStep (stepOff s q) q 0 else s.setRegFld (aQuad q 0x09) 3 0 0
    s.updQuad q (fun x => { x with jug := { x.jug with steps := 0, bad := 0, run := false } })
  else s

/-- A CAL_RUN of either kind leaves its group (R310, R316). -/
def calOver (s : State) (q : Quad) (x : Slot) : State :=
  if bitAt (pw x 0) 0 then s.setRegFld (aQuad (lead s q) 0x09) 3 0 0 else calLeave s q

/-- A command that is no round sequence ends while it executes on a group: a FIELD_ON, or a
TUNE_PORT with the field off, whose drivers are still off gives its token back (R208, R253). -/
def abortSlot (s : State) (q : Quad) (x : Slot) (st : BitVec 8) : State :=
  let s := endHold s x.stamp
  let s := if (hdrOpc x.hdr == 0x22 || hdrOpc x.hdr == 0x25) && !fieldIsOn s q && s.quads[lead s q].token == .control
    then restoreToken s q else s
  let s := tuneCut s x (st == stNotLeased)
  let s := if hdrOpc x.hdr == 0x30 then calOver s q x else s
  endCommand s x.stamp st

/-- The commands a FIELD_OFF ends: those whose field goes off under them, of CAL_RUN the kind TXPH (R121, R208, R310; log
entry 15). -/
def offEnds (x : Slot) : Bool :=
  let opc := hdrOpc x.hdr
  opc == 0x20 || opc == 0x22 || opc == 0x25 || (opc == 0x30 && bitAt (pw x 0) 0)

/-- Every command executing on a group ends (R38, R121, R195, R362, R436); with `off`, those a FIELD_OFF ends. -/
def stopGroup (s : State) (q : Quad) (st : BitVec 8) (off : Bool) : State :=
  let xs := s.car.slots.filter (fun x => runsOn s q x && !isAirOp (hdrOpc x.hdr) && (!off || offEnds x))
  each xs (fun x t => abortSlot t q x st) (stopJob s q st off)

/-- A quad's selection is cleared (R390). -/
def dropSel (s : State) (q : Quad) : State := s.updQuad (lead s q) (fun x => { x with sel := none })

/-- PA_EN of a group's quads (R213). -/
def paEnable (s : State) (q : Quad) (b : Bool) : State :=
  each (groupOf s q) (fun r t => t.setRegBit (aQuad r 0x05) 16 b) s

/-- The field of a group counts as off: drivers disabled, token as given, selection cleared, what a port tuned alone had
held back in use, and FIELD_DOWN if it was on (R34, R36, R195, R208, R390, R429). -/
def fieldDown (s : State) (q : Quad) (tok : Token) : State :=
  let was := fieldIsOn s q
  let s := dropSel s q
  let s := paEnable (setToken s q tok) q false
  let s := each (groupPorts s q) (fun p t => t.updPort p (fun x => { x with downAt := 0 })) s
  let s := each (groupOf s q) (fun r t => t.updQuad r (fun x => { x with
    field := none, carrier := false, cutFrom := none, rampAt := none })) s
  let s := powerSynths (each (groupOf s q) (fun r t => if roundRuns t r then refreshTx t r else applyNow t r) s)
  if was then fireQuad s q .fieldDown else s

/-- An unshaped cut of a group completes: its commands end with FIELD_LOST and its field is off (R36, R38, R195, R436). -/
def cutField (s : State) (q : Quad) (tok : Token) : State := fieldDown (stopGroup s q stFieldLost false) q tok

/-- A ramp-down starts: PA_EN falls and nothing more is modulated (R208, R213, R374). -/
def beginRamp (s : State) (q : Quad) (st : BitVec 8) (off : Bool) : State :=
  paEnable (dropSel (stopGroup s q st off) q) q false

/-- A group is turned off without a command because a new ceiling or region plan excludes it (R217): treated as FIELD_OFF,
its ramp ending 264 E-cycles later; SYS_ERR.CUT sets with the quad's flag (R418). -/
def planCut (s : State) (q : Quad) (flag : Nat) : State :=
  let on := fieldIsOn s q
  let s := beginRamp s q stFieldLost true
  each (groupOf s q) (fun r t =>
    let t := t.setRegBit (aQuad r 0x06) flag true
    if on then t.updQuad r (fun x => { x with rampAt := some (s.ecyc + 264) }) else t) (s.setErr errCut)

/-- The group as a FIELD_ON with this port mask leaves it: EN from MASK, so that the rotators are no beam's any more,
external-PA mode as selected, field on (R213, R219, R384). -/
def fieldOnView (s : State) (q : Quad) (mask : Nat) : State :=
  each (groupOf s q) (fun r t =>
    let t := (t.setRegBit (aQuad r 0x05) 17 (bitAt (t.reg (aQuad r 0x04)) 12)).setRegBit (aQuad r 0x06) 13 false
    let t := each (portsOf r) (fun p u => u.setRegBit (aPort p 0x21) 18 (mask.testBit p.val)) t
    t.updQuad r (fun x => { x with field := some s.ecyc })) s

/-- The command that is held before a group's driver enable: a FIELD_ON, or a TUNE_PORT with the field off (R200, R208,
R253). -/
def heldOn (s : State) (q : Quad) : Option Slot :=
  s.car.slots.find? (fun x => (hdrOpc x.hdr == 0x22 || hdrOpc x.hdr == 0x25) && x.heldAt.isSome && runsOn s q x)

/-- The levels the checker sees on a group under a new value: on, about to be on, or none while it is off (R208, R217, R253;
log entry 16). -/
def planLevels (s : State) (q : Quad) : Option (List Int) :=
  if fieldIsOn s q then some (groupLevels s q)
  else (heldOn s q).map (fun x =>
    if hdrOpc x.hdr = 0x25 then [loneLevel x] else groupLevels (fieldOnView s q (fld (pw x 0) 15 0)) q)

/-- A new ceiling or region plan is judged for every group with a field or a held command; a Barker burst in progress runs out
(R217, R218; DESIGN CHOICE, log entry 93). -/
def judgePlan (s : State) : State :=
  (each (leads s) (fun q t =>
    match planLevels t q with
    | none => t
    | some ls => if !channelOk t q then planCut t q 1 else if !admitsLevels t ls then planCut t q 0 else t) s).spend

end Sys2Proof.Machine
end

