-- ==== Sys2Proof/Machine/Window.lean ====
section
/-! DEFINITION. The register window as operations (14_register_map.md): what a word reads as on an access path, latches and
clearing reads (R409, R412), and what a write does (R410, R411) with the triggers and deferrals of each register. -/

namespace Sys2Proof.Machine

/-- The capability list (R416), on each variant in the order CX-1664, CX-0832, CX-0416. -/
def capTable : List (Nat × Word × Word × Word) :=
  [ (0x08, 0x00110202, 0x00110202, 0x00110202), (0x09, 0x0010FFFF, 0x000800FF, 0x0004000F),
    (0x0A, 0x00210202, 0x00210202, 0x00210202), (0x0B, 0x00040F0F, 0x00020303, 0x00010001),
    (0x0C, 0x00310202, 0x00310202, 0x00310202), (0x0D, 0x0000F771, 0x0000F771, 0x0000F771),
    (0x0E, 0x00410303, 0x00410303, 0x00410305), (0x0F, 0x02800028, 0x02800028, 0x02800028),
    (0x10, 0x000007FF, 0x000007FF, 0x000007FF),
    (0x11, 0x00510202, 0x00510202, 0), (0x12, 0x04B00020, 0x04B00020, 0),
    (0x13, 0x00610303, 0x00610303, 0x00610305), (0x14, 0x00040000, 0x00010000, 0x00004000),
    (0x15, 0x1003FFFF, 0x0E010000, 0x0C004000),
    (0x16, 0x00710202, 0x00710202, 0), (0x17, 0x0000FFFF, 0x000000FF, 0),
    (0x18, 0x00810202, 0x00810202, 0x00810202), (0x19, 0x1FFF1002, 0x1FFF1002, 0x1FFF1002),
    (0x1A, 0x00910202, 0x00910202, 0x00910202), (0x1B, 0x00000F08, 0x00000F08, 0x00000F08),
    (0x1C, 0x00A10202, 0x00A10202, 0x00A10202), (0x1D, 0x00000840, 0x00000840, 0x00000840),
    (0x1E, 0x00B10202, 0x00B10202, 0x00B10202), (0x1F, 0x00200002, 0x00200002, 0x00200002),
    (0x20, 0x00C10202, 0x00C10202, 0x00C10202), (0x21, 0x00400410, 0x00200410, 0x00100410),
    (0x22, 0xFFF10100, 0xFFF10100, 0xFFF10100) ]

/-- A word of the capability list (R416). -/
def capWord (v : Variant) (a : Nat) : Word :=
  match capTable.find? (fun r => r.1 == a) with
  | none => 0
  | some r => match v with | .cx1664 => r.2.1 | .cx0832 => r.2.2.1 | .cx0416 => r.2.2.2

/-- SYS_RESET (R417, R419). -/
def sysReset (s : State) : Word :=
  match s.boot.cause with
  | .powerOn => 0
  | .resetn => 1
  | .resetDevice => 2 ||| put 4 2 s.boot.causeBy.val
  | .refclk => 3

/-- The words of the timebase and capture pairs (R54). -/
def tbHi (s : State) : Word := BitVec.ofNat 32 (tbRead s / 2 ^ 32 % 2 ^ 24)
def capHi (s : State) : Word := madeView s 0x1C04

/-- ID_SERIAL_HI as it stands (R413). -/
def serialHi (s : State) : Word := BitVec.ofNat 32 (s.fuse.serial.toNat / 2 ^ 32)

/-- The identity bank (R413). -/
def peekId (s : State) (h : HostPort) (a : Nat) : Word :=
  if a = 0 then 0x1A4E
  else if a = 1 then Config.part s.variant
  else if a = 2 then 0x100 ||| put 0 4 s.fuse.step.toNat ||| put 4 4 s.fuse.metal.toNat
  else if a = 3 then BitVec.ofNat 32 s.fuse.serial.toNat
  else if a = 4 then s.latches[h].serialHi
  else capWord s.variant a

/-- The port bank: TX_EN still reads 1 while the port ramps down (R220, R261); JAM and RESID read 0 while the quad's field
is off (R246). -/
def peekPort (s : State) (a : Nat) : Word :=
  let p : Port := ⟨(a - 0x0400) / 64 % 16, by omega⟩
  if a % 64 = 0x20 then setBit (s.view a) 8 (bitAt (s.view a) 8 || decide (s.ecyc < s.ports[p].downAt))
  else if a % 64 = 0x0C && !fieldIsOn s (four ((a - 0x0400) / 256)) then setFld (s.view a) 15 0 0 else s.view a

/-- The quad bank: a ring slave mirrors SYN0's LOCKED (R201). -/
def peekQuad (s : State) (a : Nat) : Word :=
  let q : Quad := four ((a - 0x0800) / 64)
  if a % 64 = 0x01 && lead s q != q then setBit (setBit (s.view a) 0 (bitAt (s.view (aQuad 0 0x01)) 0)) 4 true else s.view a

/-- The Midway bank (R412, R441). -/
def peekMidway (s : State) (h : HostPort) (a : Nat) : Word :=
  if a = 0x1049 then s.latches[h].firedHi
  else if a = 0x104B then s.latches[h].coalHi
  else if a = aChStat then (s.view a &&& 0x00FFFFFF) ||| madeView s a
  else s.view a

/-- CU_RUN of the unit bound to a port: of the frame being clocked in, known where its bits are, else of the last one (R454;
log entry 11). -/
def boundRunOf (s : State) (h : HostPort) : Word :=
  let x := s.hosts[h]
  if x.sel && (match x.ann with | some a => a.kind == .frame | none => true) then
    (if x.runAt = s.ecyc then x.run else Config.boundRun s.ecyc h.val x.run)
  else s.view (aCu h.val 4)

/-- The CRC bank: of a unit bound to a port, CU_RUN of its frame and CU_RESULT with it; of the others what the registers hold,
and so what stood before any feed of this E-cycle (R454, R455, R461). -/
def peekCrc (s : State) (a : Nat) : Word :=
  if 0x1480 ≤ a then 0
  else if a < 0x1440 ∧ (a % 16 = 4 ∨ a % 16 = 5) then boundRunOf s (four ((a - 0x1400) / 16))
  else s.view a

/-- The memory-port bank (R463). -/
def peekMp (s : State) (a : Nat) : Word :=
  if a = aMpStat then (s.view a &&& 0x00001E10) ||| madeView s a else s.view a

/-- The timebase bank (R54, R55). -/
def peekTb (s : State) (h : HostPort) (a : Nat) : Word :=
  if a = 0x1C00 then BitVec.ofNat 32 (tbRead s)
  else if a = 0x1C01 then s.latches[h].tbNowHi
  else if a = 0x1C02 then put 0 8 (tbRead s / 2 ^ 48)
  else if a = 0x1C03 then madeView s a
  else if a = 0x1C04 then s.latches[h].tbCapHi
  else s.view a

/-- HP_STAT of a port (R342). -/
def hpStat (s : State) (h : HostPort) : Word :=
  (s.view (aHp h 1) &&& 0x001F0002) ||| madeView s (aHp h 1)

/-- HP_QUEUE of a port (R342). -/
def hpQueue (s : State) (h : HostPort) : Word := madeView s (aHp h 2)

/-- HP_ROLE (R342). -/
def hpRole (s : State) : Word :=
  put 0 2 s.boot.primary.val ||| put 2 1 (b2n s.boot.roleJournal) ||| put 4 2 s.boot.strap.toNat

/-- The host-port bank (R342). -/
def peekHp (s : State) (a : Nat) : Word :=
  let h : HostPort := four ((a - 0x2000) / 16)
  if a = 0x2040 then hpRole s
  else if a % 16 = 1 then hpStat s h
  else if a % 16 = 2 then hpQueue s h
  else s.view a

/-- A patch bank as JNL_PATCH_ACT and JNL_PATCH_INACT read it (R490). -/
def patchWord (i : Option Image) (bank : Bool) : Word :=
  match i with
  | some x => put 0 14 x.len ||| put 14 1 (b2n bank) ||| put 15 1 1 ||| put 16 16 x.ident.toNat
  | none => put 14 1 (b2n bank)

/-- The image in the active or the inactive bank (R481). -/
def bankImage (s : State) (active : Bool) : Option Image := if s.patch.active == active then s.patch.bank1 else s.patch.bank0

/-- The journal bank (R490). -/
def peekJnl (s : State) (a : Nat) : Word :=
  if a = 0x2400 then
    (match rowBusy s with | some p => put 24 6 p.row | none => s.view a &&& 0x3F000000) ||| put 0 7 (journalUsed s) |||
      put 8 7 (spoiledRows s) ||| put 16 1 (b2n (rowBusy s).isSome)
  else if a = 0x2401 then put 0 4 (leftOf s 1) ||| put 8 5 (leftOf s 2) ||| put 16 5 (leftOf s 3)
  else if a = 0x2402 then s.boot.region
  else if a = 0x2403 then s.boot.ceiling
  else if a = 0x2404 then s.boot.role
  else if a = 0x2406 then patchWord (bankImage s true) s.patch.active
  else if a = 0x2407 then patchWord (bankImage s false) s.patch.active
  else if 0x2500 ≤ a ∧ a < 0x2600 then
    match mfind s.fuse.rows ((a - 0x2500) / 4) with
    | some r => (rowWords r).getD (a % 4) 0
    | none => 0
  else s.view a

/-- What a word reads as through a port, before any effect of the read (R406, R408). -/
def peek (s : State) (h : HostPort) (a : Nat) : Word :=
  if !regPresent s.variant a || (regDef a).isNone then 0
  else if a < 0x0100 then peekId s h a
  else if a = 0x0101 then sysReset s
  else if a < 0x0400 then s.view a
  else if a < 0x0800 then peekPort s a
  else if a < 0x1000 then peekQuad s a
  else if a < 0x1400 then peekMidway s h a
  else if a < 0x1800 then peekCrc s a
  else if a < 0x1C00 then peekMp s a
  else if a < 0x2000 then peekTb s h a
  else if a < 0x2400 then peekHp s a
  else peekJnl s a

/-- An RCL counter present on this variant (R409). -/
def isRcl (s : State) (a : Nat) : Bool :=
  regPresent s.variant a && (match regDef a with | some r => r.rcl | none => false)

/-- The effects of a read: the path's latches load (R55, R412), and an RCL counter clears (R409). -/
def readEffects (s : State) (h : HostPort) (a : Nat) : State :=
  if a = 0x1C00 then s.updLatch h (fun l => { l with tbNowHi := tbHi s })
  else if a = 0x1C03 then s.updLatch h (fun l => { l with tbCapHi := capHi s })
  else if a = 0x0003 then s.updLatch h (fun l => { l with serialHi := serialHi s })
  else if a = 0x1048 then s.updLatch h (fun l => { l with firedHi := s.view 0x1049 })
  else if a = 0x104A then s.updLatch h (fun l => { l with coalHi := s.view 0x104B })
  else if isRcl s a then clearCnt s a
  else s

/-- COUNT words from an address upward, all in one E-cycle; words beyond the end of the bank it starts in read 0 and set
RANGE (R381, R407). -/
def readBlock (h : HostPort) (start : Nat) : Nat → Nat → State → List Word × State
  | _, 0, s => ([], s)
  | a, n + 1, s =>
    if beyond start a || decide (0xFFFF < a) then
      let r := readBlock h start (a + 1) n (s.setErr errRange)
      (0 :: r.1, r.2)
    else
      let w := peek s h a
      let r := readBlock h start (a + 1) n (readEffects s h a)
      (w :: r.1, r.2)

/-- The same words with no effect of the read (R409): CAL_READ and the like. -/
def peekBlock (s : State) (h : HostPort) (as : List Nat) : List Word := as.map (peek s h)

/-- The bits of a register that a write replaces, clears by 1, and passes to a trigger (R18); HP_CFG only through its own
port (R343). -/
def writeMasks (s : State) (h : HostPort) (a : Nat) : Word × Word × Word :=
  match regDef a with
  | none => (0, 0, 0)
  | some r =>
    if !regPresent s.variant a then (0, 0, 0)
    else if 0x2000 ≤ a ∧ a < 0x2040 ∧ a % 16 = 0 ∧ (a - 0x2000) / 16 ≠ h.val then (0, 0, 0)
    else (r.rw, r.w1c, r.wo)

/-- MAN_GAIN, with MAN = 1, is the gain at once; a calibration step that holds the gain hands it over at its end (R160,
R302). -/
def manualNow (s : State) (p : Port) : State :=
  let c := s.inUse (aPort p 0x12)
  let g := min 30 (fld c 20 16)
  if !bitAt c 15 then s
  else if s.quads[lead s (quadOf p)].jug.stepFrom.isSome then s.updPort p (fun x => { x with gainSaved := g })
  else s.setRegFld (aPort p 0x12) 4 0 g

/-- Whether an exchange is in progress on a quad's group. -/
def inExchange (s : State) (q : Quad) : Bool := s.quads[lead s q].exch.isSome

/-- What follows a write to a port register: applied at once, or left for its start mark, frame end, slot or reading; `old`
is the word before (R188, R205, R210, R228, R235, R236, R249, R268, R269, R271, R294). -/
def afterPort (s : State) (p : Port) (off : Nat) (old v : Word) : State :=
  let q := quadOf p
  if off = 0x08 then
    if bitAt v 0 then s
    else (s.setReg (aPort p 0x09) 0).updPort p (fun x => { x with rfcRunI := 0, rfcRunQ := 0 })
  else if off = 0x0A then
    let s := s.setRegBit (aPort p 0x0B) 0 false
    if fieldIsOn s q then s else s.apply1 (aPort p 0x0A)
  else if 0x10 ≤ off ∧ off ≤ 0x13 then (if inExchange s q then s else manualNow (s.apply1 (aPort p off)) p)
  else if off = 0x21 then applyIfIdle (s.setRegBit (aQuad q 0x06) 13 false) q
  else if off = 0x28 then
    let s := dropBase s p
    if roundRuns s q then s else s.apply1 (aPort p 0x28)
  else if off = 0x20 ∨ off = 0x37 then applyIfIdle s q
  else if off = 0x36 then (if fieldIsOn s q then s else s.apply1 (aPort p 0x36))
  else if off = 0x2B && bitAt v 8 && bitAt old 8 then s.setRegFld (aPort p 0x2B) 14 12 0
  else s

/-- What follows a write to a Midway trigger register: STOP before START, CLR before SET before TGL (R425, R433, R437). -/
def afterMidway (s : State) (a : Nat) (v : Word) : State :=
  if a = 0x104D then
    let s := each (maskList 4 (fld v 7 4)) (fun i t => regTask t (.outClr (four i))) s
    let s := each (maskList 4 (fld v 3 0)) (fun i t => regTask t (.outSet (four i))) s
    each (maskList 4 (fld v 11 8)) (fun i t => regTask t (.outTgl (four i))) s
  else if a = 0x1058 then
    let s := each (maskList 8 (fld v 15 8)) (fun i t => regTask t (.dlyStop (dly i))) s
    showMade (each (maskList 8 (fld v 7 0)) (fun i t => regTask t (.dlyStart (dly i))) s) aChStat
  else s

/-- CU_RUN has been written: CU_RESULT follows it, for reads of this E-cycle too (R410, R455). -/
def cuWritten (s : State) (u : Nat) : State :=
  let r := cuResult s u (s.reg (aCu u 4))
  (s.setView (aCu u 5) r).setReg (aCu u 5) r

/-- What follows a write to a CRC register of CU4 to CU7 (R455 to R457). -/
def afterCrc (s : State) (a : Nat) (v : Word) : State :=
  if 0x1500 ≤ a then cuFeed s (4 + (a - 0x1500) / 64) v
  else if a < 0x1440 then s
  else if a % 16 = 4 then cuWritten s ((a - 0x1400) / 16)
  else if a % 16 = 6 then (if bitAt v 0 then cuStart s ((a - 0x1400) / 16) else s)
  else if a % 16 = 7 then cuCheck s ((a - 0x1400) / 16) v
  else s

/-- What follows the placing of a written word, by its register; `old` is the word before. QUAD_TX_CFG waits for the next
start mark in every case (R207). -/
def afterWrite (s : State) (a : Nat) (old v : Word) : State :=
  if a = 0x0140 then (if bitAt v 0 then geomApply s else s)
  else if 0x0150 ≤ a ∧ a < 0x0154 then
    (if inExchange s (four (a - 0x0150)) then s else s.apply1 a)
  else if 0x0400 ≤ a ∧ a < 0x0800 then afterPort s ⟨(a - 0x0400) / 64 % 16, by omega⟩ (a % 64) old v
  else if 0x1000 ≤ a ∧ a < 0x1400 then afterMidway s a v
  else if 0x1400 ≤ a ∧ a < 0x1800 then afterCrc s a v
  else if a = 0x1C05 then (if bitAt v 0 then tbWriteCapture s else s)
  else s

/-- A word names a register that exists on this variant. -/
def holdsReg (s : State) (a : Nat) : Bool := regPresent s.variant a && (regDef a).isSome

/-- The bits that an internal update of this E-cycle keeps from a write it met, by the fields it met it in: EN alone of
PORT_TX_ROT, or each bit of CH_GRP, or else the register's fields together (R411). -/
def updateStands (a : Nat) (hit rw : Word) : Word :=
  if hit = 0 then 0
  else if 0x1040 ≤ a ∧ a < 0x1048 then hit
  else if 0x0400 ≤ a ∧ a < 0x0800 ∧ a % 64 = 0x21 ∧ hit = 0x00040000 then hit
  else rw

/-- A word placed through a port: RW fields take it, unless an internal update met them in this E-cycle, and W1C bits it
names clear, but for those that set in this E-cycle, be it anew. What an earlier command's feed left in a CRC unit is a
command's own change (R18, R410, R411, R461). -/
def placeWord (s : State) (h : HostPort) (a : Nat) (v : Word) : State :=
  if holdsReg s a then
    let m := writeMasks s h a
    let seen := s.view a
    let live := s.reg a
    let keep := if isFed a then 0 else updateStands a ((live ^^^ seen) &&& m.1) m.1
    let hot := if s.cut.at_ = s.ecyc then mget (fun _ => 0) s.cut.hot a else 0
    let rw := (v &&& ~~~ keep) ||| (live &&& keep)
    (s.setView a (((seen &&& ~~~ m.1) ||| (v &&& m.1)) &&& ~~~ (v &&& m.2.1))).setReg a
      (((live &&& ~~~ m.1) ||| (rw &&& m.1)) &&& ~~~ (v &&& m.2.1 &&& seen &&& ~~~ hot))
  else s

/-- One word written through a port, with what follows from it (R410). -/
def writeWord (s : State) (h : HostPort) (a : Nat) (v : Word) : State :=
  if holdsReg s a then afterWrite (placeWord s h a v) a (s.reg a) v else s

/-- The words of an access that lie inside its bank, each with its address (R407). -/
def insideWords (start a : Nat) (ws : List Word) : List (Nat × Word) :=
  (((List.range ws.length).map (a + ·)).zip ws).filter (fun w => !beyond start w.1 && decide (w.1 ≤ 0xFFFF))

/-- Words written from an address upward, all in one E-cycle: first all are placed, then what follows from each is done;
those beyond the end set RANGE (R382, R407). -/
def writeBlock (h : HostPort) (start a : Nat) (ws : List Word) (s : State) : State :=
  let inside := insideWords start a ws
  let t := if inside.length < ws.length then s.setErr errRange else s
  let t := each inside (fun w u => placeWord u h w.1 w.2) t
  each inside (fun w u => if holdsReg u w.1 then afterWrite u w.1 (s.reg w.1) w.2 else u) t

/-- REG_MODIFY's write of one word: RW fields receive (OLD AND NOT MASK) OR (VALUE AND MASK), W1C and WO fields VALUE AND
MASK (R382). -/
def modifyWord (s : State) (h : HostPort) (a : Nat) (mask v : Word) : State :=
  let m := writeMasks s h a
  writeWord s h a ((((s.view a &&& ~~~ mask) ||| (v &&& mask)) &&& m.1) ||| ((v &&& mask) &&& ~~~ m.1))

/-- The addresses below the end of the bank an access of `n` words reaches. -/
def insideBank (start n : Nat) : List Nat :=
  ((List.range n).map (fun i => start + i)).filter (fun a => !beyond start a && decide (a ≤ 0xFFFF))

/-- The first word of an access that names a register of a quad's bank or of one of its port banks without its lease, as
its place in the access (R6, R360, R406). -/
def unleasedAt (s : State) (h : HostPort) (start n : Nat) : Option Nat :=
  (List.range n).find? (fun i =>
    let a := start + i
    decide (a ≤ 0xFFFF) && !beyond start a && (regDef a).isSome && regPresent s.variant a &&
      (match regQuad a with
       | some q => decide (q < Config.quads s.variant) && !leased s h (four q)
       | none => false))

/-- The place of the first word of an access to PORT_TX_LEVEL or PORT_TX_ROT that leaves its group above the ceiling, with
the state after all of its words given (R216). -/
def ceilingAt (after : State) (v : Variant) (start n : Nat) : Option Nat :=
  (List.range n).find? (fun i =>
    let a := start + i
    decide (0x0400 ≤ a ∧ a < 0x0800 ∧ (a % 64 = 0x20 ∨ a % 64 = 0x21)) && regPresent v a && !beyond start a &&
      !admits after (four ((a - 0x0400) / 256)))

/-- RCL_READ_CLEAR: a counter read through a port by REG_READ or REG_MODIFY; what it read is kept (R61, R409). -/
def execRclReadClear (h : HostPort) (addr : BitVec 16) (s : State) : Host.Outcome State Fault Refusal :=
  .next (if s.tb.run && isRcl s addr.toNat then
    { readEffects s h addr.toNat with lastRead := peek s h addr.toNat }
  else s)

/-- REGISTER_WRITE: one register word written through a port; without the lease its quad needs, or above the ceiling, nothing
is written (R216, R360, R382, R410). -/
def execRegisterWrite (h : HostPort) (addr : BitVec 16) (v : Word) (s : State) : Host.Outcome State Fault Refusal :=
  let a := addr.toNat
  let t := writeBlock h a a [v] s
  .next (if s.tb.run && (unleasedAt s h a 1).isNone && (ceilingAt t s.variant a 1).isNone then t else s)

end Sys2Proof.Machine
end

