-- ==== Sys2Proof/Machine/SysCmd.lean ====
section
/-! DEFINITION. Meanings of the system commands (R376, R378, R379, R361 to R364) and of the rows of the Carousel itself
(R349, R354, R357, R358). -/

namespace Sys2Proof.Machine

/-- The present quads as a mask. -/
def presentMask (s : State) : Nat := maskOf (presentQuads s.variant)

/-- A quad mask names an absent quad. -/
def namesAbsent (s : State) (m : Nat) : Bool := decide (m &&& (15 ^^^ presentMask s) ≠ 0)

/-- The dispatch checks of NOP beyond the opcode and the TAG (R368). -/
def chkNop (_ : State) (sl : Slot) : List Chk :=
  [lengthIf sl 0]

/-- NOP (R376). -/
def execNop (k : Stamp) (s : State) : Host.Outcome State Fault Refusal :=
  .next (attempt s k (· == 0x00) chkNop (fun t _ => owe t k [(t.ecyc + 8, .none)] []))

/-- The dispatch checks of GET_CAPS beyond the opcode and the TAG (R368). -/
def chkGetCaps (_ : State) (sl : Slot) : List Chk :=
  [lengthIf sl 0]

/-- GET_CAPS: 27 words on every variant (R415). -/
def execGetCaps (k : Stamp) (s : State) : Host.Outcome State Fault Refusal :=
  .next (attempt s k (· == 0x01) chkGetCaps (fun t _ =>
    owe t k [(t.ecyc + 35, .none)] ((List.range 27).map (fun i => capWord t.variant (8 + i)))))

/-- The dispatch checks of GET_STATUS beyond the opcode and the TAG (R368). -/
def chkGetStatus (_ : State) (sl : Slot) : List Chk :=
  [lengthIf sl 1]

/-- GET_STATUS: SYS_ERR as read, HP_STAT and HP_QUEUE of the port; then the bits CLEAR names clear, but for those that set in
this E-cycle (R378, R411). -/
def execGetStatus (k : Stamp) (s : State) : Host.Outcome State Fault Refusal :=
  .next (attempt s k (· == 0x02) chkGetStatus (fun t sl =>
    let seen := t.view aSysErr
    let body := [seen, hpStat t sl.port, hpQueue t sl.port]
    let clear := pw sl 0 &&& 0x7FF
    let t := (t.setView aSysErr (seen &&& ~~~ clear)).setReg aSysErr (t.reg aSysErr &&& ~~~ (clear &&& seen))
    owe t k [(t.ecyc + 8, .none)] body))

/-- The dispatch checks of SNAPSHOT beyond the opcode and the TAG (R368). -/
def chkSnapshot (_ : State) (sl : Slot) : List Chk :=
  [lengthIf sl 0]

/-- SNAPSHOT: the block as of dispatch (R364). -/
def execSnapshot (k : Stamp) (s : State) : Host.Outcome State Fault Refusal :=
  .next (attempt s k (· == 0x03) chkSnapshot (fun t _ =>
    owe t k [(t.ecyc + 24, .none)] (snapBlock t)))

/-- The quads a host port holds, as a mask. -/
def heldMask (s : State) (h : HostPort) : Nat :=
  maskOf ([0, 1, 2, 3].filter (fun q : Quad => s.quads[q].holder == some h))

/-- LEASE's effect at dispatch + 8: the quads become held, and their synthesisers power up by R197 (R361). -/
def grantLease (s : State) (k : Word) (h : HostPort) (qs : BitVec 4) : State :=
  let s := each (maskList 4 qs.toNat) (fun i t => t.updQuad (four i) (fun x => { x with holder := some h })) s
  let s := powerSynths s
  updSlot s k (fun x => { x with body := [put 0 4 (heldMask s h)] })

/-- The dispatch checks of LEASE beyond the opcode and the TAG (R368). -/
def chkLease (t : State) (sl : Slot) : List Chk :=
  [lengthIf sl 1, absentIf (namesAbsent t (fld (pw sl 0) 3 0)) 1,
   paramIf (fld (pw sl 0) 31 4 != 0 || fld (pw sl 0) 3 0 == 0) 1]

/-- LEASE (R361). -/
def execLease (k : Stamp) (s : State) : Host.Outcome State Fault Refusal :=
  .next (attempt s k (· == 0x04) chkLease
    (fun t sl =>
      let qs := spreadMask t (fld (pw sl 0) 3 0)
      if qs.any (fun q => t.quads[q].holder.isSome && t.quads[q].holder != some sl.port) then
        owe (setStatus t k stBusyLease 1) k [(t.ecyc + 8, .none)] [put 0 4 (heldMask t sl.port)]
      else owe t k [(t.ecyc + 8, .lease (BitVec.ofNat 4 (maskOf qs)))] []))

/-- A release ends a command on a quad: one that executes there, and of an air command the one whose job the quad has (R362,
R374). -/
def endsOn (s : State) (q : Quad) (x : Slot) : Bool :=
  runsOn s q x && (!isAirOp (hdrOpc x.hdr) || (match s.quads[lead s q].job with | some j => j.stamp == x.stamp | none => false))

/-- The commands of a port that a revocation ends on these quads, by their stamps (R363). -/
def endedStamps (s : State) (h : HostPort) (qs : List Quad) : List Word :=
  (s.car.slots.filter (fun x => x.port == h && qs.any (fun q => endsOn s q x))).map (·.stamp)

/-- The lease notices of a revocation: one for each other port that loses quads (R363). -/
def revokeNotices (s : State) (h : HostPort) (qs : List Quad) : List Notice :=
  (([0, 1, 2, 3] : List HostPort).filter (fun g => g != h && qs.any (fun q => s.quads[q].holder == some g))).map (fun g =>
    let lost := qs.filter (fun q => s.quads[q].holder == some g)
    { dueAt := s.ecyc + 1, port := g, by_ := h, quads := BitVec.ofNat 4 (maskOf lost), behind := endedStamps s g lost })

/-- Released quads: leases cleared, commands ended with NOT_LEASED, fields that are on starting their ramp (R362, R390). -/
def release (s : State) (qs : List Quad) : State :=
  let s := each qs (fun q t => t.updQuad q (fun x => { x with holder := none })) s
  let s := each (qs.filter (fun q => lead s q == q)) (fun q t =>
    let on := fieldIsOn t q
    let t := dropSel (stopGroup t q stNotLeased false) q
    if on then paEnable t q false else t) s
  powerSynths s

/-- The fields of named groups go off at the end of their ramps (R208, R362). -/
def fieldsOff (s : State) (m : BitVec 4) : State :=
  each ((spreadMask s m.toNat).filter (fun q => lead s q == q)) (fun q t =>
    if fieldIsOn t q then fieldDown t q .free else t) s

/-- The dispatch checks of UNLEASE beyond the opcode and the TAG (R368). -/
def chkUnlease (t : State) (sl : Slot) : List Chk :=
  let w := pw sl 0
  let qs := spreadMask t (fld w 3 0)
  [lengthIf sl 1, absentIf (namesAbsent t (fld w 3 0)) 1, paramIf (fld w 30 4 != 0 || fld w 3 0 == 0) 1,
   leaseIf (!bitAt w 31 && qs.any (fun q => t.quads[q].holder != some sl.port)) 1]

/-- UNLEASE (R362). -/
def execUnlease (k : Stamp) (s : State) : Host.Outcome State Fault Refusal :=
  .next (attempt s k (· == 0x05) chkUnlease
    (fun t sl =>
      let qs := (spreadMask t (fld (pw sl 0) 3 0)).filter (fun q => t.quads[q].holder.isSome)
      let cut := qs.filter (fieldIsOn t)
      let notices := revokeNotices t sl.port qs
      let t := release t qs
      let t := { t with car := { t.car with notices := t.car.notices ++ notices } }
      owe t k ((t.ecyc + 1, .notices) ::
          (if cut.isEmpty then [(t.ecyc + 8, .none)] else [(t.ecyc + 264, .fieldsOff (BitVec.ofNat 4 (maskOf cut)))]))
        [put 0 4 (maskOf qs) ||| put 4 4 (maskOf cut)]))

/-- The dispatch checks of RESET_DEVICE beyond the opcode and the TAG (R368). -/
def chkResetDevice (_ : State) (sl : Slot) : List Chk :=
  [lengthIf sl 1, paramIf (pw sl 0 != ~~~ sl.hdr) 1]

/-- RESET_DEVICE (R379). -/
def execResetDevice (k : Stamp) (s : State) : Host.Outcome State Fault Refusal :=
  .next (attempt s k (· == 0x06) chkResetDevice
    (fun t _ => owe t k [(t.ecyc + 8, .fullReset)] []))

/-- UNASSIGNED_OPCODE: refused by check 1 (R344, R368). -/
def execUnassignedOpcode (k : Stamp) (s : State) : Host.Outcome State Fault Refusal :=
  .next (attempt s k (fun o => !isAssigned o) (fun _ _ => []) (fun t _ => t))

/-- The committed frame that enters next: the earliest commit, the lowest port within one E-cycle (R349). -/
def nextEntering : List Entering → Option Entering
  | [] => none
  | e :: t =>
    match nextEntering t with
    | none => some e
    | some f => if f.commitAt < e.commitAt ∨ (f.commitAt = e.commitAt ∧ f.port < e.port) then some f else some e

/-- CAROUSEL_ENTRY: 6 E-cycles after SELn rose, a frame takes its stamp (R349). -/
def execCarouselEntry (s : State) : Host.Outcome State Fault Refusal :=
  .next (match nextEntering s.car.entering with
    | some e =>
      if e.commitAt + 6 ≤ s.ecyc then
        enterFrame { s with car := { s.car with entering := s.car.entering.erase e } } e
      else s
    | none => s)

/-- TURNED_AWAY: the TIMEOUT reply of a frame committed beyond the limits, queued at entry + 2; QUIET does not suppress it
(R357). It waits while the port's command places are full (R358; log entry 18). -/
def execTurnedAway (s : State) : Host.Outcome State Fault Refusal :=
  .next (match s.car.turned.find? (fun t => decide (t.entryAt + 2 ≤ s.ecyc ∧ 0 < placesFree s t.port)) with
    | some t =>
      let s := { s with car := { s.car with turned := s.car.turned.erase t } }
      let u : OutUnit := { status := stTimeout, tag := hdrTag t.hdr, alive := hdrAlive t.hdr, ukind := 0, more := false,
                           order := t.stamp, body := [], queuedAt := 0 }
      noteLast (queueUnit s t.port u) t.port t.stamp stTimeout (some u) false
    | none => s)

/-- REPLY_QUEUED: at completion + 1 the final reply is queued, and the slot and TAG are freed (R354, R366). -/
def execReplyQueued (k : Stamp) (s : State) : Host.Outcome State Fault Refusal :=
  .next (match findSlot s k with
    | some sl => if sl.phase = .completed ∧ sl.doneAt < s.ecyc then queueReply s sl else s
    | none => s)

/-- COMMAND_UNIT_RESUME: a command paused on a full queue queues its next unit, or completes, once places are free
(R358). -/
def execCommandUnitResume (k : Stamp) (s : State) : Host.Outcome State Fault Refusal :=
  .next (match findSlot s k with
    | some sl => if sl.paused && sl.waits == .nothing then complete s k s.ecyc else s
    | none => s)

end Sys2Proof.Machine
end

