-- ==== Sys2Proof/Machine/RadioCmd.lean ====
section
/-! DEFINITION. Meanings of the radio commands (R194, R199, R202, R208, R253, R383 to R386) and of the synthesiser and token
rows (R35, R36, R193, R195, R198, R217, R436). -/

namespace Sys2Proof.Machine

/-- The quad that bits [31:30] of payload word 0 name (R383). -/
def quadField (sl : Slot) : Quad := four (fld (pw sl 0) 31 30)

/-- The checks a quad field brings: the quad is absent (4), or a ring quad other than Q0 (5) (R383). -/
def quadAbsent (s : State) (sl : Slot) : Chk := absentIf (!quadPresent s (quadField sl)) 1
def notLead (s : State) (q : Quad) : Bool := lead s q != q

/-- Legal FREQ inside the region plan in force (R190, R191). -/
def freqOk (s : State) (f : Nat) : Bool := decide (36693334 ≤ f ∧ f ≤ 40960000) && inRegion s.boot.region f

/-- A band calibration starts on a synthesiser (R196, R198, R316). -/
def startCal (s : State) (q : Quad) : State :=
  let s := (breakBursts s q).updQuad q (fun x => { x with syn := { x.syn with calFrom := some s.ecyc, lockFrom := none } })
  (synBit (synBit (synBit s q 0 false) q 1 false) q 2 true).setRegFld (aQuad q 0x09) 1 0 1

/-- A command waits from this E-cycle. -/
def holdFor (s : State) (k : Word) (w : Await) : State :=
  updSlot s k (fun x => { x with waits := w, heldAt := some s.ecyc })

/-- A command waits without its wait counting in WAIT_E. -/
def waitFor (s : State) (k : Word) (w : Await) : State := updSlot s k (fun x => { x with waits := w })

/-- A refusal found after dispatch: the command ends in this E-cycle with what it owes dropped. -/
def refuseLate (s : State) (k : Word) (st : BitVec 8) (pwd : Nat) : State :=
  updSlot (setStatus s k st pwd) k (fun x => { x with effs := [], waits := .nothing, ended := true })

/-- The Barker baselines of a group are no longer valid (R268). -/
def dropBaselines (s : State) (q : Quad) : State :=
  each (groupPorts s q) (fun p t =>
    (t.updPort p (fun x => { x with base := none })).setRegBit (aPort p 0x2B) 10 false) s

/-- The dispatch checks of SYNTH_SET beyond the opcode and the TAG (R368). -/
def chkSynthSet (t : State) (sl : Slot) : List Chk :=
  let w := pw sl 0
  let q := quadField sl
  [lengthIf sl 1, quadAbsent t sl,
   paramIf (fld w 29 26 != 0 || !freqOk t (fld w 25 0) || notLead t q) 1, leaseIf (!leased t sl.port q) 1]

/-- SYNTH_SET (R191, R194). The condition at dispatch is CAL_DUE as it reads at dispatch, so that behind a Juggler calibration
the command calibrates once more; and a retune's 240 E-cycles of ramp down run from dispatch, with PA_EN falling at their
start (DESIGN CHOICE, log entry 79). -/
def execSynthSet (k : Stamp) (s : State) : Host.Outcome State Fault Refusal :=
  .next (attempt s k (· == 0x20) chkSynthSet
    (fun t sl =>
      let q := quadField sl
      let t := powerSynths (dropBaselines t q)
      let t := updSlot t k (fun x => { x with hasWait := true })
      if fieldIsOn t q then
        owe (paEnable t q false) k [(t.ecyc + 240, .rampEnd q), (t.ecyc + 264, .freqApply q false)] [0]
      else owe t k [(t.ecyc + 24, .freqApply q (bitAt (t.reg (aQuad q 0x01)) 3))] [0]))

/-- A command's own calibration or lock ends what the Juggler's had left to do: CAL_DUE is clear (R198). -/
def jugOver (s : State) (q : Quad) : State :=
  if s.quads[q].jug.calWas.isSome then
    (synBit s q 3 false).updQuad q (fun x => { x with jug := { x.jug with calWas := none } })
  else s

/-- SYNTH_SET's FREQ is applied: a calibration first where one is due, else the lock; behind a Juggler calibration it waits
(R194, R200). -/
def freqApply (s : State) (k : Word) (q : Quad) (cal : Bool) : State :=
  if s.quads[q].syn.calFrom.isSome then
    updSlot (holdFor s k .calEnd) k (fun x => { x with effs := [(s.ecyc, .freqApply q cal)] })
  else
    match findSlot s k with
    | none => s
    | some sl =>
      let s := jugOver (endHold s k) q
      let s := s.setReg (aQuad q 0x00) (put 0 26 (fld (pw sl 0) 25 0) ||| put 26 1 1)
      waitFor (if cal then startCal s q else beginLock s q) k .lock

/-- The dispatch checks of SYNTH_CAL beyond the opcode and the TAG (R368). -/
def chkSynthCal (t : State) (sl : Slot) : List Chk :=
  let q := quadField sl
  [lengthIf sl 1, quadAbsent t sl,
   paramIf (fld (pw sl 0) 29 0 != 0 || notLead t q || fieldIsOn t q || !bitAt (t.reg (aQuad q 0x00)) 26) 1,
   leaseIf (!leased t sl.port q) 1]

/-- SYNTH_CAL (R199). -/
def execSynthCal (k : Stamp) (s : State) : Host.Outcome State Fault Refusal :=
  .next (attempt s k (· == 0x21) chkSynthCal
    (fun t sl =>
      let t := updSlot (powerSynths t) k (fun x => { x with hasWait := true })
      owe t k [(t.ecyc + 24, .calStart (quadField sl))] [0, 0]))

/-- SYNTH_CAL's calibration starts, or waits for the Juggler's to end (R199). -/
def calStart (s : State) (k : Word) (q : Quad) : State :=
  if s.quads[q].syn.calFrom.isSome then holdFor s k .calEnd
  else waitFor (startCal (jugOver (endHold s k) q) q) k .lock

/-- The dispatch checks of FIELD_ON beyond the opcode and the TAG (R368). -/
def chkFieldOn (t : State) (sl : Slot) : List Chk :=
  let w := pw sl 0
  let q := quadField sl
  [lengthIf sl 1,
   absentIf (!quadPresent t q || (maskList 16 (fld w 15 0)).any (fun i => decide (Config.ports t.variant ≤ i))) 1,
   paramIf (fld w 29 16 != 0 || fld w 15 0 == 0 || notLead t q ||
     fld w 15 0 &&& (0xFFFF ^^^ portMask (groupPorts t q)) != 0 || fieldIsOn t q || !channelOk t q) 1,
   leaseIf (!leased t sl.port q) 1]

/-- FIELD_ON (R208, R384). -/
def execFieldOn (k : Stamp) (s : State) : Host.Outcome State Fault Refusal :=
  .next (attempt s k (· == 0x22) chkFieldOn
    (fun t sl =>
      let t := updSlot (claimToken t (quadField sl)) k (fun x => { x with hasWait := true })
      owe t k [(t.ecyc + 24, .check)] []))

/-- FIELD_ON's drivers are enabled in this E-cycle: the field counts as on (R208, R213, R384). -/
def enableDrivers (s : State) (k : Word) (q : Quad) (mask : Nat) : State :=
  let s := fieldOnView (endHold s k) q mask
  let s := each (groupOf s q) (fun r t =>
    applyNow (if bitAt (t.reg (aQuad r 0x05)) 17 then t.setRegBit (aQuad r 0x05) 16 true else t) r) s
  updSlot s k (fun x => { x with waits := .nothing, effs := [(s.ecyc + 48, .carrierOn q), (s.ecyc + 288, .fieldUp q)] })

/-- A synthesiser that a held action needs powers up if it is down (R197). -/
def wakeSyn (s : State) (q : Quad) : State :=
  if s.quads[lead s q].syn.powered then s else powerUp s (lead s q)

/-- FIELD_ON at dispatch + 24: the ceiling and the region, then its driver enable or its hold (R200, R208, R216). -/
def fieldOnCheck (s : State) (k : Word) (sl : Slot) : State :=
  let q := quadField sl
  let mask := fld (pw sl 0) 15 0
  if !channelOk s q then refuseLate (restoreToken s q) k stBadParam 1
  else if !admits (fieldOnView s q mask) q then (refuseLate (restoreToken s q) k stCeiling 1).spend
  else if synReady s q then (enableDrivers s k q mask).spend
  else (holdFor (wakeSyn s q) k .lock).spend

/-- The carrier comes on at the enabled ports of a group (R87, R194, R208). -/
def carrierOn (s : State) (q : Quad) : State :=
  each (groupOf s q) (fun r t =>
    refreshTx (t.updQuad r (fun x => { x with carrier := true, carrierAt := s.ecyc })) r) s

/-- The dispatch checks of FIELD_OFF beyond the opcode and the TAG (R368). -/
def chkFieldOff (t : State) (sl : Slot) : List Chk :=
  let m := fld (pw sl 0) 3 0
  [lengthIf sl 1, absentIf (namesAbsent t m) 1, paramIf (fld (pw sl 0) 31 4 != 0 || m == 0) 1,
   leaseIf (!holdsAll t sl.port (spreadMask t m)) 1]

/-- FIELD_OFF (R208, R384). -/
def execFieldOff (k : Stamp) (s : State) : Host.Outcome State Fault Refusal :=
  .next (attempt s k (· == 0x23) chkFieldOff
    (fun t sl =>
      let qs := spreadMask t (fld (pw sl 0) 3 0)
      let cut := qs.filter (fieldIsOn t)
      let t := each (qs.filter (fun q => lead t q == q)) (fun q u =>
        if fieldIsOn u q then beginRamp u q stFieldLost true
        else
          dropSel (each (u.car.slots.filter (fun x => runsOn u q x && hdrOpc x.hdr == 0x22)) (fun x v =>
            abortSlot v q x stFieldLost) u) q) t
      owe t k [if cut.isEmpty then (t.ecyc + 8, .none) else (t.ecyc + 264, .fieldsOff (BitVec.ofNat 4 (maskOf cut)))]
        [put 0 4 (maskOf cut)]))

/-- The ports a POWER_SET names. -/
def powerPorts (sl : Slot) : List Port := allPorts.filter (fun p => (fld (pw sl 0) 15 0).testBit p.val)

/-- The dispatch checks of POWER_SET beyond the opcode and the TAG (R368). -/
def chkPowerSet (t : State) (sl : Slot) : List Chk :=
  let w := pw sl 0
  let q : Quad := four (fld w 29 28)
  if bitAt w 31 then
    [lengthIf sl 1, absentIf (!quadPresent t q) 1,
     paramIf (bitAt w 30 || fld w 27 10 != 0 || !bitAt (t.reg (aQuad q 0x04)) 12) 1, leaseIf (!leased t sl.port q) 1]
  else
    [lengthIf sl 1, absentIf ((powerPorts sl).any (fun p => !portPresent t p)) 1,
     paramIf (fld w 30 23 != 0 || fld w 15 0 == 0) 1,
     leaseIf ((powerPorts sl).any (fun p => !leased t sl.port (quadOf p))) 1]

/-- POWER_SET (R212, R385). -/
def execPowerSet (k : Stamp) (s : State) : Host.Outcome State Fault Refusal :=
  .next (attempt s k (· == 0x24) chkPowerSet
    (fun t _ => owe t k [(t.ecyc + 24, .check)] []))

/-- The registers as POWER_SET leaves them. -/
def powerWrite (s : State) (sl : Slot) : State :=
  let w := pw sl 0
  if bitAt w 31 then s.setRegFld (aQuad (four (fld w 29 28)) 0x05) 9 0 (fld w 9 0)
  else each (powerPorts sl) (fun p t => t.setRegFld (aPort p 0x20) 6 0 (fld w 22 16)) s

/-- POWER_SET at dispatch + 24: the checker, for the group and for every beam a sequence on it lists, then the write (R210,
R212, R216). -/
def powerCheck (s : State) (k : Word) (sl : Slot) : State :=
  let after := powerWrite s sl
  let named := (presentQuads s.variant).filter (fun q => (powerPorts sl).any (fun p => quadOf p == q))
  let qs := (leads s).filter (fun q => (groupOf s q).any (named.contains ·))
  let bad (q : Quad) : Bool := !admits after q ||
    (match s.quads[q].job with | some j => j.beams.any (fun b => !admitsBeam after q b) | none => false)
  if !bitAt (pw sl 0) 31 && qs.any bad then (refuseLate s k stCeiling 1).spend
  else (each (if bitAt (pw sl 0) 31 then [] else named) (fun q t => applyIfIdle t q) after).spend

/-- The dispatch checks of TUNE_PORT beyond the opcode and the TAG (R368). -/
def chkTunePort (t : State) (sl : Slot) : List Chk :=
  let w := pw sl 0
  let p : Port := ⟨fld w 3 0 % 16, by omega⟩
  let q := quadOf p
  [lengthIf sl 1, absentIf (!portPresent t p) 1,
   paramIf (fld w 31 15 != 0 || fld w 7 4 != 0 || bitAt (t.reg (aQuad q 0x05)) 17 ||
     (if fieldIsOn t q then !bitAt (t.reg (aPort p 0x21)) 18 else !channelOk t q)) 1,
   leaseIf (!leased t sl.port q) 1]

/-- TUNE_PORT (R253, R254). The 61 measurements come with it. -/
def execTunePort (k : Stamp) (meas : List TuneMeas) (s : State) : Host.Outcome State Fault Refusal :=
  .next (attempt s k (· == 0x25) chkTunePort
    (fun t sl =>
      let p : Port := ⟨fld (pw sl 0) 3 0 % 16, by omega⟩
      let q := quadOf p
      let t := updSlot t k (fun x => { x with hasWait := true })
      if fieldIsOn t q then
        owe (dropBase t p) k
          [(t.ecyc + 24, .tuneStart p), (t.ecyc + 24 + 66368, .tuneEnd p meas false), (t.ecyc + 78680, .none)] []
      else
        owe (claimToken t q) k
          [(t.ecyc + 24, .check), (t.ecyc + 312, .tuneStart p), (t.ecyc + 312 + 66368, .tuneEnd p meas true),
            (t.ecyc + 66944, .rampEnd q)] []))

/-- TUNE_PORT's driver enable with the field off: the named port alone, at TUNE_INDEX and ATT 0; what it owes moves by its
hold, and the port's baseline is no longer valid (R253, R255, R268). -/
def tuneEnable (s : State) (k : Word) (p : Port) (index hold : Nat) : State :=
  let q := quadOf p
  let s := dropBase (endHold s k) p
  let s := each (groupPorts s q) (fun r t => t.setUse (aPort r 0x21) (put 18 1 (b2n (r == p)))) s
  let s := applyCodes (s.setUse (aPort p 0x20) (put 0 7 index)) q
  let s := each (groupOf s q) (fun r t => t.updQuad r (fun x => { x with field := some s.ecyc })) s
  updSlot s k (fun x => { x with
    waits := .nothing,
    effs := (s.ecyc + 48, .carrierOn q) :: (x.effs.filter (fun e => e.2 != .check)).map (fun e => (e.1 + hold, e.2)) })

/-- TUNE_PORT at dispatch + 24 with the field off: the single-port group is checked (R215, R253). -/
def tuneCheck (s : State) (k : Word) (sl : Slot) : State :=
  let w := pw sl 0
  let p : Port := ⟨fld w 3 0 % 16, by omega⟩
  let q := quadOf p
  if !admitsLevels s [(fld w 14 8 : Int) - 48] then (refuseLate (restoreToken s q) k stCeiling 1).spend
  else if synReady s q then (tuneEnable s k p (fld w 14 8) 0).spend
  else (holdFor (wakeSyn s q) k .lock).spend

/-- The end of TUNE_PORT's ramp down: the token returns to FREE; registers are in use again (R255; log entry 19). -/
def tuneOff (s : State) (q : Quad) : State :=
  let s := each (groupOf s q) (fun r t => t.updQuad r (fun x => { x with field := none, carrier := false, cutFrom := none }))
    (setToken s q .free)
  powerSynths (each (groupOf s q) (fun r t => applyNow t r) s)

/-- A ramp down inside a command has ended: a retune's carrier is off (R194), or TUNE_PORT's drivers are disabled. -/
def rampEnd (s : State) (sl : Slot) (q : Quad) : State :=
  if hdrOpc sl.hdr = 0x25 then tuneOff s q
  else each (groupOf s q) (fun r t => refreshTx (t.updQuad r (fun x => { x with carrier := false })) r) s

/-- The beam and its 16 entries of a BEAM_LOAD (R204, R386). -/
def loadBeam (s : State) (sl : Slot) : State :=
  let b := fld (pw sl 0) 4 0
  each (List.range 16) (fun i t => { t with beams := mset (fun _ => 0) t.beams (16 * b + i) (pw sl (1 + i)) }) s

/-- The groups that have a beam applied with their field on (R386). -/
def beamOn (s : State) (b : Nat) : List Quad :=
  (leads s).filter (fun q => (groupOf s q).any (fun r =>
    let w := s.reg (aQuad r 0x06)
    fieldIsOn s r && bitAt w 13 && fld w 12 8 == b))

/-- The groups that list a beam in a running sequence (R386). -/
def beamListed (s : State) (b : Nat) : List Quad :=
  (leads s).filter (fun q => match s.quads[q].job with | some j => j.beams.contains b | none => false)

/-- The dispatch checks of BEAM_LOAD beyond the opcode and the TAG (R368). -/
def chkBeamLoad (t : State) (sl : Slot) : List Chk :=
  let b := fld (pw sl 0) 4 0
  let qs := beamOn t b ++ beamListed t b
  [lengthIf sl 17, absentIf (!Config.hasBearing t.variant) 1, paramIf (fld (pw sl 0) 31 5 != 0) 1] ++
    (List.range 16).map (fun i => paramIf (fld (pw sl (1 + i)) 31 19 != 0) (2 + i)) ++
    [leaseIf (qs.any (fun q => !leased t sl.port q)) 1]

/-- BEAM_LOAD (R386). -/
def execBeamLoad (k : Stamp) (s : State) : Host.Outcome State Fault Refusal :=
  .next (attempt s k (· == 0x26) chkBeamLoad
    (fun t _ => owe t k [(t.ecyc + 24, .check), (t.ecyc + 40, .beamWrite)] []))

/-- BEAM_LOAD at dispatch + 24 (R216, R386). -/
def beamLoadCheck (s : State) (k : Word) (sl : Slot) : State :=
  let b := fld (pw sl 0) 4 0
  let after := loadBeam s sl
  if (beamOn s b ++ beamListed s b).any (fun q => !admitsBeam after q b) then (refuseLate s k stCeiling 1).spend
  else s.spend

/-- EN of a group's ports in use differs from the registers. -/
def enChanged (s t : State) (q : Quad) : Bool :=
  (groupPorts s q).any (fun p => bitAt (s.reg (aPort p 0x21)) 18 != bitAt (t.reg (aPort p 0x21)) 18)

/-- BEAM_LOAD at dispatch + 40: the beam is written whole, and rotators move where it is applied (R205, R261, R386). -/
def beamWrite (s : State) (k : Word) (sl : Slot) : State :=
  let b := fld (pw sl 0) 4 0
  let qs := beamOn s b
  let idle := qs.filter (fun q => !roundRuns s q)
  let t := each qs (fun q u => writeBeam u q b) (loadBeam s sl)
  let change := idle.any (fun q => enChanged s t q)
  let t := each (qs.flatMap (groupOf s)) (fun q u => applyIfIdle u q) t
  if idle.isEmpty then t
  else updSlot t k (fun x => { x with effs := x.effs ++ [(x.dispAt + (if change then 280 else 104), .none)] })

/-- The dispatch checks of BEAM_SELECT beyond the opcode and the TAG (R368). -/
def chkBeamSelect (t : State) (sl : Slot) : List Chk :=
  let q := quadField sl
  [lengthIf sl 1, absentIf (!Config.hasBearing t.variant || !quadPresent t q) 1,
   paramIf (fld (pw sl 0) 29 5 != 0 || notLead t q) 1, leaseIf (!leased t sl.port q) 1]

/-- BEAM_SELECT (R203, R385). -/
def execBeamSelect (k : Stamp) (s : State) : Host.Outcome State Fault Refusal :=
  .next (attempt s k (· == 0x27) chkBeamSelect
    (fun t _ => owe t k [(t.ecyc + 24, .check)] []))

/-- BEAM_SELECT at dispatch + 24: the checker, then the rotator load and the ramps (R205, R216, R261, R385). -/
def beamSelectCheck (s : State) (k : Word) (sl : Slot) : State :=
  let q := quadField sl
  let b := fld (pw sl 0) 4 0
  if !admitsBeam s q b then (refuseLate s k stCeiling 1).spend
  else
    let t := writeBeam s q b
    let change := enChanged s t q
    let t := each (groupOf s q) (fun r u => applyIfIdle u r) t
    (updSlot t k (fun x => { x with effs := x.effs ++ [(x.dispAt + (if change then 264 else 88), .none)] })).spend

/-- The ring of a variant (R27). -/
def ringQuads (v : Variant) : List Quad := if Config.hasBearing v then presentQuads v else []

/-- The dispatch checks of RING_MODE beyond the opcode and the TAG (R368). -/
def chkRingMode (t : State) (sl : Slot) : List Chk :=
  let ring := ringQuads t.variant
  [lengthIf sl 1, absentIf ring.isEmpty 1, paramIf (fld (pw sl 0) 31 1 != 0 || ring.any (fieldIsOn t)) 1,
   leaseIf (!holdsAll t sl.port ring) 1]

/-- RING_MODE (R28, R29, R202). -/
def execRingMode (k : Stamp) (s : State) : Host.Outcome State Fault Refusal :=
  .next (attempt s k (· == 0x29) chkRingMode
    (fun t sl =>
      let enter := bitAt (pw sl 0) 0
      let t := each (ringQuads t.variant) (fun q u => u.updQuad q (fun x => { x with sel := none })) t
      if enter == t.ring then owe t k [(t.ecyc + 8, .none)] [0]
      else owe t k [(t.ecyc + (if enter then 512 else 64), .ring enter)] [0]))

/-- Quads whose relock a RING_MODE exit waits for (R202). -/
def relocking (s : State) : List Quad := (ringQuads s.variant).filter (fun q => s.quads[q].syn.relock)

/-- RING_MODE's change of mode (R201, R202, R268, R303): synthesisers by R197, receive calibrations due, baselines gone, and a
receive sequence in progress dropped, since its steps ran on other ports than those now due (DESIGN CHOICE, log entry 96). A
burst goes on only at a port of Q0, whose SYN0 keeps its lock (R196); at entry it then holds the FREE tokens of the whole
ring, at exit Q0's alone; every other token stays as it is (R34; DESIGN CHOICE, log entry 77). -/
def ringChange (s : State) (k : Word) (enter : Bool) : State :=
  let ring := ringQuads s.variant
  let slaves := ring.filter (· != 0)
  let s := each (ring.flatMap portsOf) (fun p t => dropBase ((t.setRegBit (aPort p 0x32) 1 true).setRegFld (aPort p 0x32) 18 16 0) p) s
  let s := each ring (fun q t => t.updQuad q (fun x => { x with jug := { x.jug with steps := 0, bad := 0 } })) s
  let s := breakBurstsAt s (slaves.flatMap portsOf)
  let was := s.quads[(0 : Quad)].token
  let s := each slaves (fun q t => t.updQuad q (fun x => { x with token :=
    if enter then (if was == .barker && x.token == .free then .barker else x.token)
    else (if x.token == .barker then .free else x.token) })) s
  let s := powerSynths { s with ring := enter }
  if enter then s
  else
    let s := each slaves (fun q t => t.updQuad q (fun x => { x with syn := { x.syn with relock := x.syn.lockFrom.isSome } })) s
    if (relocking s).isEmpty then s else waitFor s k .relock

/-- A relock that a RING_MODE exit waits for is over: LOCK_E is the largest T_lock so far, or, where this one timed out, the
command's status TIMEOUT; with the last the command completes (R202, R383). -/
def relockOver (s : State) (q : Quad) (tLock : Option Nat) : State :=
  if s.quads[q].syn.relock then
    let s := s.updQuad q (fun x => { x with syn := { x.syn with relock := false } })
    each (s.car.slots.filter (fun x => x.phase == .executing && x.waits == .relock)) (fun x t =>
      let t := if tLock.isNone then setStatus t x.stamp stTimeout 0 else t
      updSlot t x.stamp (fun y =>
        let y := { y with body := [put 0 16 (max (fld (y.body.headD 0) 15 0) (satTo 0xFFFF (tLock.getD 0)))] }
        if (relocking t).isEmpty then { y with waits := .nothing, effs := [(t.ecyc, .none)] } else y)) s
  else s

/-- TOKEN_REFRESH: on time up to the E-cycle in which the timer reaches its limit; later the cut has begun (R35 to R37). -/
def execTokenRefresh (q : Quad) (s : State) : Host.Outcome State Fault Refusal :=
  .next (if s.quads[q].token = .control ∧ s.quads[q].refreshAt + 2048 ≤ s.ecyc ∧ s.ecyc ≤ s.quads[q].refreshAt + 3932 then
    each (groupOf s q) (fun r t => t.updQuad r (fun x => { x with refreshAt := s.ecyc })) s
  else s)

/-- RING_LOST: the token timer passed 3,932 E-cycles with no refresh in that E-cycle; the cut completes (R36 to R38). -/
def execRingLost (q : Quad) (s : State) : Host.Outcome State Fault Refusal :=
  .next (if s.quads[q].token = .control ∧ s.quads[q].refreshAt + 3932 < s.ecyc then
    fireQuad ((cutField s q .lost).setErr errRing) q .ringLost
  else s)

/-- A command whose hold ends with a declaration of lock goes on (R194, R199, R200, R208, R255). -/
def lockGoesOn (s : State) (q : Quad) (sl : Slot) : State :=
  let k := sl.stamp
  let opc := hdrOpc sl.hdr
  let lockE := put 0 16 (fld (s.reg (aQuad q 0x03)) 15 0)
  if opc = 0x20 then
    let on := fieldIsOn s q
    let s := if on then each (groupOf s q) (fun r t => if bitAt (t.reg (aQuad r 0x05)) 17 then t.setRegBit (aQuad r 0x05) 16 true
      else t) s else s
    updSlot s k (fun x => { x with
      waits := .nothing, body := [lockE],
      effs := if on then [(s.ecyc + 48, .carrierOn q), (s.ecyc + 288, .none)] else [(s.ecyc, .none)] })
  else if opc = 0x21 then
    updSlot s k (fun x => { x with
      waits := .nothing, effs := [(s.ecyc, .none)],
      body := [s.reg (aQuad q 0x03), put 0 6 (fld (s.reg (aQuad q 0x01)) 21 16)] })
  else if opc = 0x22 then enableDrivers s k q (fld (pw sl 0) 15 0)
  else if opc = 0x25 then
    tuneEnable s k ⟨fld (pw sl 0) 3 0 % 16, by omega⟩ (fld (pw sl 0) 14 8)
      (match sl.heldAt with | some e => s.ecyc - e | none => 0)
  else if opc = 0x30 then
    updSlot (endHold s k) k (fun x => { x with waits := .nothing, effs := x.effs.map (fun e => (max e.1 s.ecyc, e.2)) })
  else s

/-- The Juggler lets go of a synthesiser it holds powered (R300). -/
def jugRelease (s : State) (q : Quad) : State :=
  if s.quads[q].syn.juggler then
    powerSynths (s.updQuad q (fun x => { x with
      syn := { x.syn with juggler := false }, jug := { x.jug with forStep := false } }))
  else s

/-- A band calibration the Juggler began is over, its relock declared, or that of the command that has calibrated in its
place: CAL_DUE clears and the synthesiser is let go (R198, R300). -/
def jugDone (s : State) (q : Quad) : State :=
  if s.quads[q].jug.calWas.isSome || (s.quads[q].syn.juggler && !s.quads[q].jug.forStep) then jugRelease (jugOver s q) q else s

/-- A lock timeout abandons what the Juggler had begun, with the due flags set: a band calibration counts as not made (R300;
log entry 81). -/
def jugGiveUp (s : State) (q : Quad) : State :=
  let s := match s.quads[q].jug.calWas with
    | some w => ((synBit s q 3 true).setReg (aQuad q 0x02) w).updQuad q (fun x => { x with jug := { x.jug with calWas := none } })
    | none => s
  jugRelease s q

/-- The commands that wait for a lock on a group. -/
def lockWaiters (s : State) (q : Quad) : List Slot :=
  s.car.slots.filter (fun x => x.waits == .lock && runsOn s q x)

/-- LOCK_DECLARED: not before 160 CLK_S periods inside ±5° (R193); LOCKED, LOCK_E, and what waited goes on. -/
def execLockDeclared (q : Quad) (s : State) : Host.Outcome State Fault Refusal :=
  .next (match s.quads[q].syn.lockFrom with
    | some t0 =>
      if s.quads[q].syn.powered && decide (t0 + 1600 ≤ s.ecyc) then
        let s := synBit (synBit s q 0 true) q 1 false
        let s := s.setRegFld (aQuad q 0x03) 15 0 (satTo 0xFFFF (s.ecyc - t0))
        let s := s.updQuad q (fun x => { x with syn := { x.syn with lockFrom := none } })
        jugDone (relockOver (each (lockWaiters s q) (fun x t => lockGoesOn t q x) s) q (some (s.ecyc - t0))) q
      else s
    | none => s)

/-- What a lock timeout does to the command that waits on it (R193, R194, R255, R384). -/
def lockTimesOut (s : State) (q : Quad) (sl : Slot) : State :=
  let k := sl.stamp
  let opc := hdrOpc sl.hdr
  let s := endHold s k
  let s := if opc = 0x20 && fieldIsOn s q then fieldDown s q .free
    else if opc = 0x22 ∨ opc = 0x25 then restoreToken s q else s
  updSlot (refuseLate s k stTimeout 0) k (fun x => { x with effs := [(s.ecyc, .none)] })

/-- A command that began to hold after its synthesiser's attempt had timed out has held for 29,491 E-cycles (R197, R200;
log entry 80). -/
def heldOut (s : State) (x : Slot) : Bool := match x.heldAt with | some e => decide (e + 29491 ≤ s.ecyc) | none => false

/-- LOCK_TO: 29,491 E-cycles without lock (R193, R418); the synthesiser keeps trying, and a command that comes to hold on it
later ends after as many. What the Juggler had powered it up for is abandoned (R300). -/
def execLockTo (q : Quad) (s : State) : Host.Outcome State Fault Refusal :=
  .next (match s.quads[q].syn.lockFrom with
    | some t0 =>
      if s.quads[q].syn.timedOut then
        each ((lockWaiters s q).filter (heldOut s)) (fun x t => lockTimesOut t q x) s
      else if t0 + 29491 ≤ s.ecyc then
        let s := (synBit s q 9 true).setErr errLockTo
        let s := s.updQuad q (fun x => { x with syn := { x.syn with timedOut := true } })
        jugGiveUp (relockOver (each (lockWaiters s q) (fun x t => lockTimesOut t q x) s) q none) q
      else s
    | none => s)

/-- What a loss of lock does to a group that radiates under CONTROL: flags, count, event and the cut (R195, R418). -/
def unlockCut (s : State) (l : Quad) : State :=
  let s := (synBit s l 8 true).setErr errUnlock
  cutField (fireQuad (bump s (aQuad l 0x07)) l .synUnlock) l .free

/-- SYN_UNLOCK: a synthesiser that had declared lock loses it. The group is cut where it radiates under CONTROL, and the
synthesiser relocks to its FREQ (R195, R196). -/
def execSynUnlock (q : Quad) (s : State) : Host.Outcome State Fault Refusal :=
  let l := lead s q
  .next (if bitAt (s.reg (aQuad l 0x01)) 0 then
    let t := synBit s l 0 false
    let t := if underControl s l then unlockCut t l else t
    if t.quads[l].syn.powered then beginLock t l else t
  else s)

/-- A calibration's end lets the commands that waited for it start their own; a CAL_RUN goes on holding for the lock (R194,
R199, R200, R310). -/
def calWaiters (s : State) (q : Quad) : State :=
  each (s.car.slots.filter (fun x => x.waits == .calEnd && runsOn s q x)) (fun x t =>
    if hdrOpc x.hdr = 0x30 then waitFor t x.stamp .lock
    else
    let t := updSlot t x.stamp (fun y => { y with waits := .nothing, effs := [] })
    if hdrOpc x.hdr = 0x21 then calStart t x.stamp q
    else freqApply t x.stamp q (x.effs.any (fun e => e.2 == .freqApply q true))) s

/-- The temperature a calibration records: the latest reading, or an open value before the first (R198, R295; log entry
35). -/
def quadTemp (s : State) (q : Quad) : BitVec 16 :=
  let w := s.reg (aQuad q 0x08)
  if bitAt w 16 then BitVec.ofNat 16 (fld w 15 0) else Config.earlyTemp s.free q.val

/-- BAND_CAL_COMPLETE: band and temperature recorded, then the lock to FREQ (R198). CAL_DUE of a calibration the Juggler began
waits for that lock (R300). -/
def execBandCalComplete (q : Quad) (band : BitVec 6) (s : State) : Host.Outcome State Fault Refusal :=
  .next (match s.quads[q].syn.calFrom with
    | some t0 =>
      let s := synBit (synBit s q 2 false) q 3 s.quads[q].jug.calWas.isSome
      let s := s.setRegFld (aQuad q 0x01) 21 16 band.toNat
      let s := (s.setReg (aQuad q 0x02) (put 0 16 (quadTemp s q).toNat)).spend
      let s := s.setRegFld (aQuad q 0x03) 31 16 (satTo 0xFFFF (s.ecyc - t0))
      let s := (s.setRegFld (aQuad q 0x09) 3 0 0).updQuad q (fun x => { x with syn := { x.syn with calFrom := none } })
      let s := if s.quads[q].syn.powered then beginLock s q else s
      calWaiters s q
    | none => s)

/-- FIELD_CUT: the cut that FIELD_CUT_T began in E-cycle t completes: after t, and by t + 64 (R436, R438). -/
def execFieldCut (q : Quad) (s : State) : Host.Outcome State Fault Refusal :=
  .next (match s.quads[lead s q].cutFrom with
    | some t =>
      if t < s.ecyc then
        let u := backTo s (min s.ecyc (t + 64))
        returnTo s (each (groupOf s q) (fun r v => v.setRegBit aChStat r.val true) (cutField u (lead s q) .free))
      else s
    | none => s)

/-- RAMP_DOWN_COMPLETE: the ramp of a field cut by a new ceiling or region plan ends (R217), or that of a port cut by
FAULT_CUT (R259). -/
def execRampDownComplete (q : Quad) (s : State) : Host.Outcome State Fault Refusal :=
  let due (e : Option Nat) : Bool := match e with | some x => decide (x ≤ s.ecyc) | none => false
  .next (
    let s := if due s.quads[lead s q].rampAt then fieldDown s (lead s q) .free else s
    each (portsOf q) (fun p t =>
      if due t.ports[p].rampAt then
        let t := refreshTx ((t.updPort p (fun x => { x with rampAt := none })).setUse (aPort p 0x21) (t.reg (aPort p 0x21))) (quadOf p)
        t.updPort p (fun x => { x with downAt := 0 })
      else t) s)

end Sys2Proof.Machine
end

