-- ==== Sys2Proof/Machine/Directory.lean ====
section
/-! DEFINITION. The tag directory (R131 to R148, R398, R399): hashing and placement, sighting updates with their bearing
and records, scrub, and the directory commands. -/

namespace Sys2Proof.Machine

/-- B1 and B2 of a name; h2 takes preset, reflection and final XOR as h1 does, that is no reflection and no final XOR
(R132). -/
def bucketsOf (v : Variant) (n : Name) : Nat × Nat :=
  let bs := bitsMsb 96 n.toNat
  let b1 := crcFold 32 0x04C11DB7 0xFFFFFFFF bs % Config.buckets v
  let b2 := crcFold 32 0x1EDC6F41 0xFFFFFFFF bs % Config.buckets v
  (b1, if b2 = b1 then b1 ^^^ 1 else b2)

/-- The handle of a name, searched over its eight slots (R133). -/
def findName (v : Variant) (m : SMap Entry) (n : Name) : Option Nat :=
  let b := bucketsOf v n
  (handlesOf b.1 ++ handlesOf b.2).find? (fun h => match mfind m h with | some e => e.name == n | none => false)

/-- The free slot of a bucket with the lowest number (R131, R136). -/
def freeSlot (m : SMap Entry) (b : Nat) : Option Nat :=
  (handlesOf b).find? (fun h => h != noEntry && (mfind m h).isNone)

/-- An entry that holds a name and has not been seen (R134). -/
def freshEntry (n : Name) (expected : Bool) : Entry :=
  { name := n, flags := if expected then 0xC000 else 0x8000, lastSeen := 0, az := 0x8000, el := 0x8000,
    doppler := 0x8000, rssi := 0, bestPort := 0xFF, seen := 0, round := 0 }

/-- A placement: the directory after it, the handle of the name (none: it failed), whether the name was there already,
displacements made, the eviction counter after it, and the buckets written, in order. -/
structure Placed where
  entries : SMap Entry
  handle : Option Nat
  found : Bool
  disp : Nat
  evict : BitVec 2
  writes : List Nat
  deriving DecidableEq, Repr

/-- The slot a displacement evicts: the one the eviction counter names, and the next where that one never holds a name
(R131, R136; log entry 24). -/
def victim (b : Nat) (c : BitVec 2) : Nat := if 4 * b + c.toNat = noEntry then 4 * b else 4 * b + c.toNat

/-- The displacements of an insertion: the entry carried evicts a slot of bucket `b`; `n` are still allowed (R136, R137).
The result gives the directory, the displacements made, the counter and the buckets written; none for the directory when
no place was found. -/
def displace (v : Variant) : Nat → SMap Entry → BitVec 2 → Nat → Entry → List Nat →
    Option (SMap Entry) × Nat × BitVec 2 × List Nat
  | 0, _, c, _, _, ws => (none, 512, c, ws)
  | n + 1, m, c, b, e, ws =>
    let h := victim b c
    match mfind m h with
    | none => (some (mput m h e), 512 - n, c + 1, ws ++ [b])
    | some old =>
      let m := mput m h e
      let o := bucketsOf v old.name
      let b' := if b = o.1 then o.2 else o.1
      match freeSlot m b' with
      | some f => (some (mput m f old), 512 - n, c + 1, ws ++ [b, b'])
      | none => displace v n m (c + 1) b' old (ws ++ [b])

/-- A name placed in a directory: found, in a free slot, or by displacement (R136, R137). -/
def place (v : Variant) (m : SMap Entry) (c : BitVec 2) (e : Entry) : Placed :=
  let b := bucketsOf v e.name
  match findName v m e.name with
  | some h => { entries := m, handle := some h, found := true, disp := 0, evict := c, writes := [h / 4] }
  | none =>
    match freeSlot m b.1, freeSlot m b.2 with
    | some h, _ => { entries := mput m h e, handle := some h, found := false, disp := 0, evict := c, writes := [b.1] }
    | none, some h => { entries := mput m h e, handle := some h, found := false, disp := 0, evict := c, writes := [b.2] }
    | none, none =>
      let r := displace v 512 m c b.1 e []
      match r.1 with
      | some m' =>
        { entries := m', handle := findName v m' e.name, found := false, disp := r.2.1, evict := r.2.2.1, writes := r.2.2.2 }
      | none =>
        { entries := m, handle := none, found := false, disp := 512, evict := r.2.2.1, writes := r.2.2.2 ++ r.2.2.2.reverse }

/-- The displacements a placement's time counts: those of a failed one are also undone (R136, R399). -/
def placeSteps (r : Placed) : Nat := if r.handle.isNone then 1024 else r.disp

/-- A write to bucket `b` in E-cycle `t` meets a scan: the scan has begun, and has not read the bucket by then (R139,
R358). -/
def scanMet (c : Scan) (b t : Nat) : Bool :=
  decide (c.beginAt ≤ t) && !c.early.contains b &&
    (decide (t ≤ scanReadAt c b) || (match c.pauseFrom with | some e => decide (e ≤ scanReadAt c b) | none => false))

/-- The scans a write can meet: the one running, and the last that has ended (R139). -/
def scansOf (s : State) : List Scan := s.dir.scan.toList ++ s.dir.lastScan.toList

/-- The scans a write to bucket `b` due in E-cycle `t` meets, by their first E-cycles; `seen` are the buckets each scan has
evaluated out of order for an earlier write of the same step (R139). -/
def meets (s : State) (seen : List (Nat × Nat)) (b t : Nat) : List Nat :=
  ((scansOf s).filter (fun c => scanMet c b t && !seen.contains (b, c.beginAt))).map (·.beginAt)

/-- The E-cycles in which a step's writes land: the first is due at `t`, one every 24 E-cycles, each 4 later where it meets
a scan; a bucket the scan has evaluated out of order it has read (R136, R139). -/
def writeTimes (s : State) : List (Nat × Nat) → List Nat → Nat → List Nat
  | _, [], _ => []
  | seen, b :: r, t =>
    let met := meets s seen b t
    let e := if met.isEmpty then t else t + 4
    e :: writeTimes s (met.map (fun c => (b, c)) ++ seen) r (e + 24)

/-- The E-cycles that writes meeting a scan add to a step whose first write is due at `t` (R136, R139). -/
def scanWaits (s : State) (ws : List Nat) (t : Nat) : Nat :=
  match (writeTimes s [] ws t).getLast? with
  | some e => e - (t + 24 * (ws.length - 1))
  | none => 0

/-- A failed insertion counts: FULLS, SYS_ERR.DIR_FULL and the event (R137, R418); FULLS saturates (R60). -/
def insertFailed (s : State) : State :=
  let s := raise (s.setErr errDirFull) .dirFull
  if s.dir.fulls < 0xFFFFFFFF then { s with dir := { s.dir with fulls := s.dir.fulls + 1 } }
  else if s.past.contains 0x10000 then s
  else { s with past := 0x10000 :: s.past, cntSat := s.cntSat ++ [s.ecyc], dir := { s.dir with satFulls := true } }

/-- An insertion cut short after `n` of its writes: the directory as it stands then, the entry in transit in no bucket
(R136, R139; log entry 76). `e` is the entry carried to bucket `b`. -/
def partPlaced (v : Variant) : Nat → SMap Entry → BitVec 2 → Nat → Entry → SMap Entry
  | 0, m, _, _, _ => m
  | n + 1, m, c, b, e =>
    match freeSlot m b with
    | some f => mput m f e
    | none =>
      let h := victim b c
      match mfind m h with
      | none => mput m h e
      | some old =>
        let o := bucketsOf v old.name
        partPlaced v n (mput m h e) (c + 1) (if b = o.1 then o.2 else o.1) old

/-- A placement becomes the directory (R136). -/
def commitPlace (s : State) (r : Placed) : State :=
  let s := { s with dir := { s.dir with entries := r.entries, evict := r.evict, maxDisp := max s.dir.maxDisp r.disp } }
  if r.handle.isNone then insertFailed s else s

/-- The 8 words of an entry (R134). -/
def entryWords (e : Entry) : List Word :=
  nameWords e.name ++
    [ put 16 16 e.flags.toNat ||| put 0 16 (e.lastSeen.toNat / 2 ^ 32), BitVec.ofNat 32 e.lastSeen.toNat,
      put 16 16 e.az.toNat ||| put 0 16 e.el.toNat,
      put 16 16 e.doppler.toNat ||| put 8 8 e.rssi.toNat ||| put 0 8 e.bestPort.toNat,
      put 16 16 e.seen.toNat ||| put 0 16 e.round.toNat ]

/-- A host's record queue has room for `n` more places (R146, R147). -/
def recordRoom (s : State) (h : HostPort) (n : Nat) : Bool := decide (recordPlaces s.hosts[h].queue + n ≤ 4096)

/-- A sighting or action record is queued to its host, or dropped (R146, R147, R348). -/
def queueSight (s : State) (h : HostPort) (n : Nat) (u : OutUnit) : State :=
  if recordRoom s h n then queueUnit s h { u with order := s.car.lastStamp } else bump s (aHp h 3)

/-- The ports a fit takes: of the group as the reply found it, whose taps alone there are (`tapPorts`); in the applied
geometry, with a pilot SNR of at least MIN_SNR dB (R30, R151). -/
def fitPorts (s : State) (pil : List PilotMeas) : List PilotMeas :=
  let m := fld (s.reg 0x0140) 11 8
  pil.filter (fun x => portPresent s x.port && gvalid s x.port && decide (10 ^ (30 + m) ≤ x.snr ^ 10))

/-- Doppler in 0.05 Hz: the average weighted by pilot SNR, to the nearest step, held at its ends (R153). -/
def dopplerOf (pil : List PilotMeas) : BitVec 16 :=
  let w : Nat := (pil.map (·.snr)).sum
  if w = 0 then 0x8000
  else
    let n : Int := (pil.map (fun x => (x.snr : Int) * x.dop)).sum
    BitVec.ofInt 16 (max (-32767) (min 32767 ((2 * n + 50 * (w : Int)) / (100 * (w : Int)))))

/-- The bearing of a name frame: AZ, EL and AMBIG, each angle held in the range of its class (R149 to R152). -/
def bearingOf (s : State) (q : Quad) (pil : List PilotMeas) : BitVec 16 × BitVec 16 × Bool :=
  let ps := fitPorts s pil
  let c := geomClass (ps.map (fun x => posOf s x.port))
  if c = 0 ∨ Config.hasBearing s.variant = false then (0x8000, 0x8000, false)
  else
    let f := bearingFit c (fld (s.reg (aQuad (lead s q) 0x00)) 25 0) (fld (s.reg 0x0140) 15 12)
      (ps.map (fun x => let r := posOf s x.port; { x := r.x, y := r.y, z := r.z, a := { re := x.re, im := x.im } }))
    let az := if c = 3 then (if f.1 = 18000 then -18000 else f.1) else clampTo (-9000) 9000 f.1
    (BitVec.ofInt 16 az, if c = 1 then 0x8000 else BitVec.ofInt 16 (clampTo (-9000) 9000 f.2.1), f.2.2)

/-- U of the update at the head of the FIFO (R136). -/
def nextUpdate (s : State) : Option (Sight × Nat) := s.dir.fifo.head?.map (fun x => (x, max x.vAt s.dir.updFree))

/-- BEARING_FIT: the next update starts at its U; its fit takes 1,200 E-cycles (R136, R151, R153). -/
def execBearingFit (s : State) : Host.Outcome State Fault Refusal :=
  .next (match nextUpdate s with
    | some (x, u) =>
      if s.dir.upd.isNone && decide (u ≤ s.ecyc) then
        let b := bearingOf s x.group x.taps
        { s with dir := { s.dir with
            fifo := s.dir.fifo.drop 1,
            upd := some { s := x, fitEnd := u + 1200, az := b.1, el := b.2.1, ambig := b.2.2,
                          dop := if x.doppler then dopplerOf x.taps else 0x8000 } } }
      else s
    | none => s)

/-- The sighting update proper (R135, R138). -/
def updateEntry (u : Upd) (round : BitVec 16) (e : Entry) : Entry :=
  let q := u.s.best.val / 4
  { e with
    flags := 0xA000 ||| (e.flags &&& 0x4000) ||| BitVec.ofNat 16 (4096 * b2n u.s.iso + 2048 * b2n (u.az != 0x8000) +
      1024 * b2n (u.el != 0x8000) + 4 * q),
    lastSeen := u.s.stamp, az := u.az, el := u.el, doppler := u.dop, rssi := u.s.rssi,
    bestPort := BitVec.ofNat 8 u.s.best.val, round := round,
    seen := if e.seen = 0xFFFF then e.seen else e.seen + 1 }

/-- RFLAGS of a sighting (R144). -/
def rflags (u : Upd) (isNew inserted expected : Bool) (h : Option Nat) : Nat :=
  32768 * b2n isNew + 16384 * b2n inserted + 8192 * b2n expected + 4096 * b2n u.s.iso + 2048 * b2n (u.az != 0x8000) +
    1024 * b2n (u.el != 0x8000) + 512 * b2n h.isNone + 256 * b2n u.s.twin + 128 * b2n u.ambig + 4 * (u.s.best.val / 4) +
    h.getD noEntry / 65536

/-- The body of a sighting record (R143). -/
def sightBody (u : Upd) (flags : Nat) (round : BitVec 16) (h : Nat) : List Word :=
  nameWords u.s.name ++
    [ put 16 16 flags ||| put 0 16 (u.s.stamp.toNat / 2 ^ 32), BitVec.ofNat 32 u.s.stamp.toNat,
      put 16 16 u.az.toNat ||| put 0 16 u.el.toNat,
      put 16 16 u.dop.toNat ||| put 8 8 u.s.rssi.toNat ||| put 0 8 u.s.best.val,
      put 16 16 round.toNat ||| put 0 16 h ]

/-- The handle an update gave reaches the tag in hand and the action records that wait for it (R147). -/
def noteHandle (s : State) (u : Upd) (h : Nat) : State :=
  let s := each ([0, 1, 2, 3] : List Quad) (fun q t => t.updQuad q (fun x => { x with
    job := x.job.map (fun j =>
      if j.stamp = u.s.job ∧ u.s.round = some j.roundNo then
        { j with tag := j.tag.map (fun g => if g.name = u.s.name then { g with handle := some h } else g) }
      else j) })) s
  { s with dir := { s.dir with acts := s.dir.acts.map (fun a =>
      if a.job = u.s.job ∧ a.name = u.s.name ∧ u.s.round = some a.round ∧ a.handle = none then
        { a with handle := some h, readyAt := max a.readyAt (s.ecyc + 1) }
      else a) } }

/-- A directory step writes (or undoes): the entry, the record, the counts and the event (R136 to R138, R143 to R147,
R429). -/
def applyUpdate (s : State) (u : Upd) (r : Placed) : State :=
  let round := u.s.round.getD s.roundCtr
  let s := commitPlace s r
  let old := r.handle.bind (fun h => mfind s.dir.entries h)
  let isNew := match old with | some e => !e.flags.getLsbD 13 | none => true
  let exp := match old with | some e => e.flags.getLsbD 14 | none => false
  let s := match r.handle, old with
    | some h, some e => { s with dir := { s.dir with entries := mput s.dir.entries h (updateEntry u round e) } }
    | _, _ => s
  let s := if r.handle.isNone then updSum s u.s.job (fun m => { m with failedInserts := m.failedInserts + 1 }) else s
  let s := noteHandle { s with dir := { s.dir with upd := none, updFree := s.ecyc + 1 } } u (r.handle.getD noEntry)
  let s := fireQuad s u.s.group .sight
  let rec_ : Option OutUnit :=
    if u.s.all || isNew || r.handle.isNone then
      some { status := stOk, tag := hdrTag u.s.hdr, alive := hdrAlive u.s.hdr, ukind := 1, more := false, order := 0,
             body := sightBody u (rflags u isNew (r.handle.isSome && !r.found) exp r.handle) round (r.handle.getD noEntry),
             queuedAt := 0 }
    else none
  { s with dir := { s.dir with record := some { dueAt := s.ecyc + 1, host := u.s.host, job := u.s.job, unit := rec_ } } }

/-- The sighting record that is due is queued (R136, R145). -/
def queueDue (s : State) : State :=
  match s.dir.record with
  | some x =>
    if x.dueAt ≤ s.ecyc then
      let s := { s with dir := { s.dir with record := none } }
      match x.unit with
      | some u => queueSight s x.host 1 u
      | none => s
    else s
  | none => s

/-- S of the update in progress, the placement its step makes, and the step's end (R136). -/
def stepPlan (s : State) (u : Upd) : Placed × Nat :=
  let at_ := max u.fitEnd s.dir.freeAt
  let r := place s.variant s.dir.entries s.dir.evict (freshEntry u.s.name false)
  (r, at_ + 46 + 24 * placeSteps r + scanWaits s r.writes (at_ + 46))

/-- The directory as a command of this E-cycle finds it: with the writes that a step in progress has made before it, and those
of a failed insertion that it has undone (R136, R139, R355). -/
def dirNow (s : State) : SMap Entry :=
  match s.dir.upd with
  | none => s.dir.entries
  | some u =>
    let at_ := max u.fitEnd s.dir.freeAt
    let r := (stepPlan s u).1
    let n := ((writeTimes s [] r.writes (at_ + 46)).filter (fun e => decide (e < s.ecyc))).length
    if n = 0 ∨ r.found = true ∨ r.disp = 0 then s.dir.entries
    else
      partPlaced s.variant (if r.handle.isNone then min n (1024 - n) else n) s.dir.entries s.dir.evict
        (bucketsOf s.variant u.s.name).1 (freshEntry u.s.name false)

/-- The scan is paused and has not read a bucket that the step writes (R358). -/
def stepBlocked (s : State) (r : Placed) : Bool :=
  match s.dir.scan with
  | some c => (match c.pauseFrom with | some e => r.writes.any (fun b => decide (e ≤ scanReadAt c b)) | none => false)
  | none => false

/-- The errors of an access, of those buckets it reads (R142; log entry 27). -/
def eccReads (s : State) (reads : List Nat) (ecc : List (Nat × EccErr)) : State :=
  each (ecc.filter (fun e => reads.contains e.1)) (fun e t => eccRead t e.1 e.2) s

/-- The errors that the reads of a placement meet act in their order: those of the name's two buckets, then those of the
buckets its displacements pass. The access goes on with what they leave (R136, R142). What is left over was not read. -/
def eccPath : Nat → State → Entry → List (Nat × EccErr) → State × List (Nat × EccErr)
  | 0, s, _, ecc => (s, ecc)
  | n + 1, s, x, ecc =>
    let b := bucketsOf s.variant x.name
    let reads := b.1 :: b.2 :: (place s.variant s.dir.entries s.dir.evict x).writes
    match reads.find? (fun r => ecc.any (fun e => e.1 == r)) with
    | none => (s, ecc)
    | some r =>
      eccPath n (each (ecc.filter (fun e => e.1 == r)) (fun e t => eccRead t e.1 e.2) s) x (ecc.filter (fun e => e.1 != r))

/-- The scans a step's writes have met have evaluated those buckets out of order (R139). -/
def noteEarly (s : State) (u : Upd) (r : Placed) : State :=
  let at_ := max u.fitEnd s.dir.freeAt
  let met := ((r.writes.zip (writeTimes s [] r.writes (at_ + 46))).filter (fun e => !(meets s [] e.1 (e.2 - 4)).isEmpty)).map (·.1)
  scanFinds { s with dir := { s.dir with scan := s.dir.scan.map (fun c => { c with early := met ++ c.early }) } }
    (fun x => met.contains x.1) (fun _ => s.ecyc)

/-- DIRECTORY_STEP: at the end of the step its result is written, and one E-cycle later its record is queued; `ecc` are the
errors its reads met (R136 to R138, R142, R358). -/
def execDirectoryStep (ecc : List (Nat × EccErr)) (s : State) : Host.Outcome State Fault Refusal :=
  let s := queueDue s
  .next (match s.dir.upd with
    | some u =>
      let t := (eccPath ecc.length s (freshEntry u.s.name false) ecc).1
      let p := stepPlan t u
      if decide (p.2 ≤ s.ecyc) && !stepBlocked t p.1 then
        let t := noteEarly t u p.1
        applyUpdate t u (stepPlan t u).1
      else s
    | none => s)

/-- The handle the update of a name will get, once the updates ahead of it have been applied; `n` bounds the updates looked
at (R391; log entry 26). -/
def predictHandle (v : Variant) (n : Name) : SMap Entry → BitVec 2 → List Name → Option Nat
  | _, _, [] => none
  | m, c, x :: t =>
    let r := place v m c (freshEntry x false)
    if x = n then r.handle else predictHandle v n r.entries r.evict t

/-- ACTION_RECORD: the first action record of a group whose exchange has ended and whose name has its update (R147). -/
def execActionRecord (q : Quad) (s : State) : Host.Outcome State Fault Refusal :=
  let s := queueDue s
  .next (match s.dir.acts.find? (fun a => a.group == lead s q && a.handle.isSome && decide (a.readyAt ≤ s.ecyc)) with
    | some a =>
      let h := a.handle.getD noEntry
      let s := { s with dir := { s.dir with acts := s.dir.acts.erase a } }
      queueSight s a.host 2
        { status := a.status, tag := hdrTag a.hdr, alive := hdrAlive a.hdr, ukind := 6, more := false, order := 0,
          body := (put 30 2 (if a.sense then 2 else 1) ||| put 29 1 (b2n a.iso) ||| put 28 1 (b2n (h == noEntry)) |||
              put 26 2 a.quad ||| put 0 18 h) ::
            (put 16 16 a.round.toNat ||| put 0 16 a.code.toNat) :: (nameWords a.name ++ a.data),
          queuedAt := 0 }
    | none => s)

/-- DIR_SCRUB: an idle directory cycle reads one bucket; a single-bit error is corrected, a double-bit error empties the
bucket (R142; log entry 27). -/
def execDirScrub (bucket : Nat) (err : EccErr) (s : State) : Host.Outcome State Fault Refusal :=
  .next (if s.isReady && !dirStepBusy s && decide (s.dir.freeAt ≤ s.ecyc ∧ bucket < Config.buckets s.variant) then
    eccRead s bucket err
  else s)

/-- The name of three payload words. -/
def nameAt (sl : Slot) (i : Nat) : Name := nameOf (pw sl i) (pw sl (i + 1)) (pw sl (i + 2))

/-- A directory command that keeps steps out until it completes at `e` (R136, R138). -/
def holdSteps (s : State) (e : Nat) : State := { s with dir := { s.dir with freeAt := max s.dir.freeAt (e + 1) } }

/-- The dispatch checks of DIR_LOOKUP beyond the opcode and the TAG (R368). -/
def chkDirLookup (_ : State) (sl : Slot) : List Chk :=
  [lengthIf sl 3]

/-- DIR_LOOKUP: the entry as at dispatch; `ecc` are the errors its reads of the name's two buckets met (R133, R142, R398,
R399). -/
def execDirLookup (k : Stamp) (ecc : List (Nat × EccErr)) (s : State) : Host.Outcome State Fault Refusal :=
  .next (attempt s k (· == 0x60) chkDirLookup (fun t sl =>
    let b := bucketsOf t.variant (nameAt sl 0)
    let t := eccReads t [b.1, b.2] ecc
    let body := match findName t.variant t.dir.entries (nameAt sl 0) with
      | some h =>
        (put 31 1 1 ||| put 0 18 h) :: entryWords ((mfind t.dir.entries h).getD (freshEntry 0 false))
      | none => put 0 18 noEntry :: List.replicate 8 0
    owe (holdSteps t (t.ecyc + 38)) k [(t.ecyc + 38, .none)] body))

/-- The entries a DIR_CLEAR leaves, by its scope (R140). -/
def clearedEntries (scope : Nat) (m : SMap Entry) : SMap Entry :=
  if scope = 0 then []
  else if scope = 1 then m.map (fun e => (e.1, { e.2 with flags := e.2.flags &&& 0xDFFF }))
  else m.filter (fun e => e.2.flags.getLsbD 14)

/-- The dispatch checks of DIR_CLEAR beyond the opcode and the TAG (R368). -/
def chkDirClear (_ : State) (sl : Slot) : List Chk :=
  [lengthIf sl 1, paramIf (fld (pw sl 0) 31 2 != 0 || fld (pw sl 0) 1 0 == 3) 1]

/-- DIR_CLEAR: one step at dispatch, complete in that E-cycle (R140, R376). -/
def execDirClear (k : Stamp) (s : State) : Host.Outcome State Fault Refusal :=
  .next (attempt s k (· == 0x62) chkDirClear
    (fun t sl =>
      let m := clearedEntries (fld (pw sl 0) 1 0) t.dir.entries
      let n := t.dir.entries.length - m.length
      owe (holdSteps { t with dir := { t.dir with entries := m } } t.ecyc) k [(t.ecyc, .none)] [BitVec.ofNat 32 n]))

/-- N of a DIR_LOAD. -/
def loadCount (sl : Slot) : Nat := fld (pw sl 0) 6 0

/-- The E-cycles in which the names of a DIR_LOAD are placed, with the errors that its reads have not met before each; the
directory unit runs no scan meanwhile, so no write meets one (R142, R350, R399). -/
def loadPlan : State → List (Nat × EccErr) → List Name → Nat → List (Nat × List (Nat × EccErr))
  | _, _, [], _ => []
  | s, ecc, n :: t, e =>
    let (u, rest) := eccPath ecc.length s (freshEntry n true) ecc
    let r := place u.variant u.dir.entries u.dir.evict (freshEntry n true)
    let e := e + 46 + 24 * placeSteps r
    (e, ecc) :: loadPlan { u with dir := { u.dir with entries := r.entries, evict := r.evict } } rest t e

/-- The dispatch checks of DIR_LOAD beyond the opcode and the TAG (R368). -/
def chkDirLoad (_ : State) (sl : Slot) : List Chk :=
  [lengthIf sl (1 + 3 * loadCount sl), paramIf (fld (pw sl 0) 31 7 != 0 || decide (loadCount sl = 0 ∨ 84 < loadCount sl)) 1]

/-- DIR_LOAD: its names are placed one after another, no step between them; `ecc` are the errors its reads will meet, each
taken with the first name that reads its bucket (R138, R140, R142, R367, R399; log entry 27). -/
def execDirLoad (k : Stamp) (ecc : List (Nat × EccErr)) (s : State) : Host.Outcome State Fault Refusal :=
  .next (attempt s k (· == 0x63) chkDirLoad
    (fun t sl =>
      let ns := (List.range (loadCount sl)).map (fun i => nameAt sl (1 + 3 * i))
      let ts := loadPlan t ecc ns t.ecyc
      owe (holdSteps t ((ts.getLast?.map (·.1)).getD t.ecyc)) k
        ((List.range ns.length).map (fun i => let p := ts.getD i (0, []); (p.1, .loadName i p.2)))
        (List.replicate (4 + ns.length) 0)))

/-- The body of a DIR_LOAD with one name's result taken in: INSERTED, ALREADY, FAILED, DISP, and the name's word (R398). -/
def loadBody (body : List Word) (i : Nat) (r : Placed) : List Word :=
  let add (k : Nat) (n : Nat) (b : List Word) : List Word := b.set k (b.getD k 0 + BitVec.ofNat 32 n)
  let b := add 3 r.disp body
  match r.handle with
  | none => (add 2 1 b).set (4 + i) (put 30 1 1 ||| put 0 18 noEntry)
  | some h => if r.found then (add 1 1 b).set (4 + i) (put 0 18 h) else (add 0 1 b).set (4 + i) (put 31 1 1 ||| put 0 18 h)

/-- One name of a DIR_LOAD is placed, past the errors its reads meet; a name already present only gets EXPECTED (R137, R140,
R142). -/
def loadName (s : State) (k : Word) (sl : Slot) (i : Nat) (ecc : List (Nat × EccErr)) : State :=
  let s := (eccPath ecc.length s (freshEntry (nameAt sl (1 + 3 * i)) true) ecc).1
  let r := place s.variant s.dir.entries s.dir.evict (freshEntry (nameAt sl (1 + 3 * i)) true)
  let s := commitPlace s r
  let s := match r.handle.bind (fun h => (mfind s.dir.entries h).map (fun e => (h, e))) with
    | some (h, e) =>
      { s with dir := { s.dir with entries := mput s.dir.entries h { e with flags := e.flags ||| 0x4000 } } }
    | none => s
  updSlot s k (fun x => { x with
    body := loadBody x.body i r, status := if r.handle.isNone then stDirFull else x.status })

/-- The dispatch checks of DIR_STATS beyond the opcode and the TAG (R368). -/
def chkDirStats (_ : State) (sl : Slot) : List Chk :=
  [lengthIf sl 1, paramIf (fld (pw sl 0) 31 2 != 0) 1]

/-- DIR_STATS (R398, R399). -/
def execDirStats (k : Stamp) (s : State) : Host.Outcome State Fault Refusal :=
  .next (attempt s k (· == 0x64) chkDirStats (fun t sl =>
    let d := t.dir
    let n (f : Entry → Bool) : Word := BitVec.ofNat 32 (d.entries.filter (fun e => f e.2)).length
    let body := [BitVec.ofNat 32 d.entries.length, n (fun e => e.flags.getLsbD 14), n (fun e => e.flags.getLsbD 13),
      BitVec.ofNat 32 d.fulls, BitVec.ofNat 32 d.eccEmptied, BitVec.ofNat 32 d.maxDisp,
      put 0 1 (b2n d.satFulls) ||| put 1 1 (b2n d.satEcc)]
    let t := if bitAt (pw sl 0) 0 then
        { t with past := t.past.filter (fun a => a != 0x10000 && a != 0x10001), dir := { t.dir with fulls := 0, eccEmptied := 0 } }
      else t
    let t := if bitAt (pw sl 0) 1 then { t with dir := { t.dir with satFulls := false, satEcc := false } } else t
    owe t k [(t.ecyc + 8, .none)] body))

/-- A scan starts: its items are the directory's as cut at dispatch; its reads will find errors as they come (R139,
R142). -/
def beginScan (s : State) (k : Word) (per : Nat) (items : List (List Word × Nat)) (ecc : List (Nat × EccErr)) : State :=
  let s := { s with dir := { s.dir with
    scan := some { stamp := k, items := items, per := per, beginAt := s.ecyc, paused := 0, pauseFrom := none,
                   early := [], ecc := ecc.filter (fun x => decide (x.1 < Config.buckets s.variant)) } } }
  updSlot s k (fun x => { x with waits := .scan })

/-- The filter of DIR_STREAM (R398). -/
def streamKeeps (f : Nat) (e : Entry) : Bool :=
  if f = 0 then true else if f = 1 then e.flags.getLsbD 13 else if f = 2 then e.flags.getLsbD 14 else !e.flags.getLsbD 14

/-- The dispatch checks of DIR_STREAM beyond the opcode and the TAG (R368). -/
def chkDirStream (_ : State) (sl : Slot) : List Chk :=
  [lengthIf sl 1, paramIf (fld (pw sl 0) 31 2 != 0) 1]

/-- DIR_STREAM; `ecc` are the errors its reads will find (R139, R142, R398; log entry 27). -/
def execDirStream (k : Stamp) (ecc : List (Nat × EccErr)) (s : State) : Host.Outcome State Fault Refusal :=
  .next (attempt s k (· == 0x61) chkDirStream (fun t sl =>
    beginScan t k 27 (((dirNow t).filter (fun e => streamKeeps (fld (pw sl 0) 1 0) e.2)).map (fun e =>
      (BitVec.ofNat 32 e.1 :: entryWords e.2, e.1 / 4))) ecc))

/-- LAST_SEEN lies before SINCE modulo 2^48 (R58, R141). -/
def seenBefore (a b : BitVec 48) : Bool := a != b && !(b - a).getLsbD 47

/-- An entry DIR_MISSING lists (R141, R399). -/
def isMissing (since : Option (BitVec 48)) (e : Entry) : Bool :=
  e.flags.getLsbD 14 && (!e.flags.getLsbD 13 || (match since with | some b => seenBefore e.lastSeen b | none => false))

/-- The dispatch checks of DIR_MISSING beyond the opcode and the TAG (R368). -/
def chkDirMissing (_ : State) (sl : Slot) : List Chk :=
  [lengthIf sl 2, paramIf (fld (pw sl 0) 30 16 != 0) 1]

/-- DIR_MISSING; `ecc` as for DIR_STREAM (R141, R142, R398; log entry 27). -/
def execDirMissing (k : Stamp) (ecc : List (Nat × EccErr)) (s : State) : Host.Outcome State Fault Refusal :=
  .next (attempt s k (· == 0x65) chkDirMissing (fun t sl =>
    let w := pw sl 0
    let since : Option (BitVec 48) :=
      if bitAt w 31 then some (BitVec.ofNat 48 (fld w 15 0 * 2 ^ 32 + (pw sl 1).toNat)) else none
    beginScan t k 62 (((dirNow t).filter (fun e => isMissing since e.2)).map (fun e =>
      (BitVec.ofNat 32 e.1 :: nameWords e.2.name, e.1 / 4))) ecc))

/-- SCAN_UNIT_QUEUE: a full unit of the scan is queued, one E-cycle after its last item was read; without a place the scan
pauses at this boundary (R358, R366, R399). -/
def execScanUnitQueue (s : State) : Host.Outcome State Fault Refusal :=
  .next (match s.dir.scan with
    | some c =>
      match findSlot s c.stamp with
      | some sl =>
        let it := c.items.take c.per
        if it.length = c.per ∧ scanReadAt c ((it.getLast?.map (·.2)).getD 0) + 1 ≤ s.ecyc then
          let set (d : Scan) : State := { s with dir := { s.dir with scan := some d } }
          if hdrQuiet sl.hdr then set { c with items := c.items.drop c.per }
          else if placesFree s sl.port = 0 then
            (if c.pauseFrom.isSome then s else set { c with pauseFrom := some s.ecyc })
          else
            let u := replyUnit sl true (it.flatMap (·.1))
            let s' := queueUnit (set { c with
              items := c.items.drop c.per, pauseFrom := none,
              paused := c.paused + (match c.pauseFrom with | some e => s.ecyc - e | none => 0) }) sl.port u
            updSlot s' c.stamp (fun x => { x with firstSent := some (x.firstSent.getD u) })
        else s
      | none => s
    | none => s)

/-- The end of a scan: its last items are the final unit's (R373, R399). -/
def scanEnd (s : State) (k : Word) : State :=
  match s.dir.scan with
  | some c =>
    if c.stamp = k ∧ c.items.length < c.per ∧ c.beginAt + 8 + 4 * Config.buckets s.variant + c.paused ≤ s.ecyc then
      updSlot { s with dir := { s.dir with scan := none, lastScan := some c } } k (fun x => { x with
        waits := .nothing, body := c.items.flatMap (·.1) })
    else s
  | none => s

end Sys2Proof.Machine
end

