-- ==== Sys2Proof/Machine/Equaliser.lean ====
section
/-! DEFINITION. The decision-feedback equaliser, its adaptation and decisions, and the despreader's segments (R178 to
R180). Each chip comes with its window of eight samples half a chip apart, interpolated and derotated (Chain.lean). The taps
are carried exactly (log entry 62). -/

namespace Sys2Proof.Machine

/-- The settings of a port's equaliser in use (R178, R187). -/
structure EqCfg where
  en : Bool
  fb : Bool
  dd : Bool
  muTrain : Nat
  muDd : Nat
  deriving DecidableEq, Repr

/-- The equaliser in a frame: 8 feed-forward taps half a chip apart, 4 feedback taps a chip apart and the bias tap, all in
2^-`exp`, and the last four decisions, newest first. -/
structure EqSt where
  ff : List Cx
  fb : List Cx
  bias : Cx
  exp : Nat
  past : List Int
  deriving DecidableEq, Repr

/-- One: the training amplitude, in the unit of the window's samples. -/
def unitAmp : Int := 256

/-- The centre feed-forward tap, of 0 to 7 (log entry 62). -/
def centreTap : Nat := 3

/-- The equaliser at a replay's start: the centre tap is 1, every other tap 0 (R178). -/
def EqSt.start : EqSt :=
  { ff := (List.range 8).map (fun i => { re := if i = centreTap then 1 else 0, im := 0 }), fb := List.replicate 4 Cx.zero,
    bias := Cx.zero, exp := 0, past := [0, 0, 0, 0] }

/-- The equalised value of the chip whose window is `w`, in 2^-(`exp` + 8). -/
def EqSt.out (e : EqSt) (w : List Cx) : Cx :=
  ((Cx.sum (List.zipWith Cx.mul e.ff w)).add (Cx.sum (List.zipWith (fun f d => Cx.smul (unitAmp * d) f) e.fb e.past))).add
    (Cx.smul unitAmp e.bias)

/-- The LMS step 2^-`mu` on the taps in play, towards the reference `d`; the bias tap always adapts (R178, R179). -/
def EqSt.adapt (c : EqCfg) (mu : Nat) (d : Int) (w : List Cx) (e : EqSt) : EqSt :=
  let err := Cx.sub { re := d * ((2 ^ (e.exp + 8) : Nat) : Int), im := 0 } (e.out w)
  let up (t g : Cx) : Cx := (Cx.smul ((2 ^ (16 + mu) : Nat) : Int) t).add g
  let grow (l : List Cx) : List Cx := l.map (Cx.smul ((2 ^ (16 + mu) : Nat) : Int))
  { e with
    ff := if c.en then List.zipWith (fun t x => up t (err.mul x.conj)) e.ff w else grow e.ff,
    fb := if c.en && c.fb then List.zipWith (fun t p => up t (Cx.smul (unitAmp * p) err)) e.fb e.past else grow e.fb,
    bias := up e.bias (Cx.smul unitAmp err),
    exp := e.exp + 16 + mu }

/-- A chip's decision is `d`. -/
def EqSt.next (d : Int) (e : EqSt) : EqSt := { e with past := d :: e.past.take 3 }

/-- Known chips, each with its window, train the taps and are their own decisions (R178, R179). -/
def train (c : EqCfg) : List (Bool × List Cx) → EqSt → EqSt
  | [], e => e
  | (b, w) :: t, e => train c t ((e.adapt c c.muTrain (chipSign b) w).next (chipSign b))

/-- The raw training correlation of known chips, which a bypassed equaliser refers polarity to (R178, R180). -/
def trainRef (l : List (Bool × List Cx)) : Cx := Cx.sum (l.map (fun x => Cx.smul (chipSign x.1) (x.2.getD centreTap Cx.zero)))

/-- A segment of data chips: `run` is the running despread sum in the taps' scale, `pol` the polarity's reference. Each
decision is the code chip times the sign of the sum up to it; the segment's bit is the sign of the whole (R179, R180). -/
def segment (c : EqCfg) (pol : Cx) : List (Bool × List Cx) → Cx → EqSt → Bool × EqSt
  | [], run, e => (decide ((run.mul pol).re < 0), e)
  | (b, w) :: t, run, e =>
    let r := run.add (Cx.smul (chipSign b) (e.out w))
    let d := if (r.mul pol).re < 0 then -(chipSign b) else chipSign b
    if c.dd then segment c pol t (Cx.smul ((2 ^ (16 + c.muDd) : Nat) : Int) r) ((e.adapt c c.muDd d w).next d)
    else segment c pol t r (e.next d)

/-- A data symbol, its chips with their windows: one bit at SF 16, four at SF 4 (R79, R180). -/
def dataSymbol (c : EqCfg) (pol : Cx) (sf4 : Bool) (ch : List (Bool × List Cx)) (e : EqSt) : List Bool × EqSt :=
  if sf4 then
    let a := segment c pol (ch.take 4) Cx.zero e
    let b := segment c pol ((ch.drop 4).take 4) Cx.zero a.2
    let d := segment c pol ((ch.drop 8).take 4) Cx.zero b.2
    let f := segment c pol (ch.drop 12) Cx.zero d.2
    ([a.1, b.1, d.1, f.1], f.2)
  else
    let a := segment c pol ch Cx.zero e
    ([a.1], a.2)

/-- The 16-bit words of a bit string; `n` counts them. -/
def wordsOfBits : Nat → List Bool → List (BitVec 16)
  | 0, _ => []
  | n + 1, bs => BitVec.ofNat 16 (natOfBits (bs.take 16)) :: wordsOfBits n (bs.drop 16)

end Sys2Proof.Machine
end

