-- ==== Sys2Proof/Machine/Trackers.lean ====
section
/-! DEFINITION. What is read from symbol correlations: preamble lock and its coarse carrier estimate (R165), the carrier and
timing trackers (R176, R177), pilot quality (R171), and a pilot tap's amplitude, SNR and slope (R153, R181, R290). -/

namespace Sys2Proof.Machine

/-- Bit-reply energies at one offset: of the C0 correlation, and of C1 after a quarter of the C0 correlation is taken off
it (R161, R162); both in 1/16. -/
def energyC0 (c0 _c1 : Cx) : Nat := 16 * c0.energy
def energyC1 (c0 c1 : Cx) : Nat := ((Cx.smul 4 c1).sub c0).energy

/-- The difference of two phases lies within ±45°: the product's real part is not negative and not below the imaginary
part's size (R165). -/
def within45 (a b : Cx) : Bool :=
  let d := a.mul b.conj
  decide (0 ≤ d.re ∧ d.im ≤ d.re ∧ -d.im ≤ d.re)

/-- Each correlation lies within ±45° of the phase predicted from the one before: the phase of that one and the step before
it, no step being known before the second (R165; log entry 65). -/
def steady : List Cx → Bool
  | a :: b :: t => within45 b a && steadyOn a b t
  | _ => true
where
  steadyOn (a b : Cx) : List Cx → Bool
    | [] => true
    | c :: t => within45 (c.mul a) (b.mul b) && steadyOn b c t

/-- The products of neighbours, each with the one before conjugated: their phases are the steps. -/
def phaseSteps : List Cx → List Cx
  | a :: b :: t => b.mul a.conj :: phaseSteps (b :: t)
  | _ => []

/-- The coarse carrier estimate, in 2^-40 turn a symbol (R165). -/
def coarseOf (l : List Cx) : Int := angleOf (Cx.sum (phaseSteps l))

/-- A phase step of 2^-40 turn over `e` E-cycles, in units of 1/`k` Hz to the nearest (R49). -/
def hertz (k : Nat) (e : Nat) (a : Int) : Int := rdiv (a * 245760000 * k) (turn * ((max e 1 : Nat) : Int))

/-- The largest phase step a symbol of `e` E-cycles takes at 2 kHz (R176). -/
def maxStep (e : Nat) : Int := turn * 2000 * (e : Int) / 245760000

/-- The early-late error of a known symbol, the late energy's excess over both in 2^-16; positive says that the tag runs
slow (R177). -/
def earlyLate (early late : Cx) : Int :=
  let s : Int := early.energy + late.energy
  if s = 0 then 0 else ((late.energy : Int) - early.energy) * 65536 / s

/-- The trackers in a frame: the place of the next symbol in 2^-16 chip from the lock, the phase predicted for it and the
phase step a symbol in 2^-40 turn, and the chip-rate error in 0.1 ppm, positive for a fast tag (R176, R177). -/
structure Loop where
  pos : Int
  ph : Int
  f : Int
  r : Int
  deriving DecidableEq, Repr

/-- One symbol, in 2^-16 chip. -/
def symbolSpan : Int := 1048576

/-- The trackers as a frame's replay starts: from the coarse estimate, held to ±2 kHz, and the phase of the lock's last
symbol (R173, R176). -/
def Loop.start (lim coarse : Int) (ref : Cx) : Loop :=
  let f := clampTo (-lim) lim coarse
  { pos := 0, ph := angleOf ref + f, f := f, r := 0 }

/-- A symbol passes that the trackers do not know: the phase and the place of the next follow from what is tracked. -/
def Loop.pass (l : Loop) : Loop :=
  { l with pos := l.pos + symbolSpan + rdiv (symbolSpan * -l.r) 10000000, ph := l.ph + l.f }

/-- A known symbol updates both loops: the second-order carrier loop by its phase, the timing loop by its early-late error;
±2 kHz and ±200 ppm bound them (R176, R177; log entry 63). -/
def Loop.update (bw : Nat) (lim : Int) (z early late : Cx) (l : Loop) : Loop :=
  let g := Config.carrierGain bw
  let h := Config.timingGain bw
  let err := wrapTurn (angleOf z - l.ph)
  let te := earlyLate early late
  let m := Loop.pass { l with f := clampTo (-lim) lim (l.f + g.2 * err / 65536), r := clampTo (-2000) 2000 (l.r - h.2 * te / 65536) }
  { m with pos := m.pos + h.1 * te / 65536, ph := m.ph + g.1 * err / 65536 }

/-- Q: the energy of the sum of the first two pilots, the second turned back by the tracker, over the floor of 32 chips
(R158, R171). `f` is the tracked step a symbol. -/
def pilotQuality (noise : Ratio) (f : Int) (a b : Cx) : Ratio :=
  { num := ((a.add (rotated b (-(8 * f)))).energy) * noise.den, den := 2 * noise.num }

/-- The phases of a tap's correlations, each with its place in symbols, unwrapped with a prior step a symbol (R181). -/
def unwrapped (prior : Int) : Int × Cx → Int → List (Int × Cx) → List (Int × Int)
  | a, ph, [] => [(a.1, ph)]
  | a, ph, b :: t =>
    let e := prior * (b.1 - a.1)
    (a.1, ph) :: unwrapped prior b (ph + e + wrapTurn (angleOf (b.2.mul a.2.conj) - e)) t

/-- The least-squares slope of phases against their places; the prior where all lie at one place (R153, R181; log entry
66). -/
def slopeOf (prior : Int) (ph : List (Int × Int)) : Int :=
  let n : Int := ph.length
  let st := (ph.map (·.1)).sum
  let num := (ph.map (fun x => (n * x.1 - st) * x.2)).sum
  let den := (ph.map (fun x => (n * x.1 - st) * x.1)).sum
  if den ≤ 0 then prior else rdiv num den

/-- A tap's correlations with the slope taken off, referred to the first (R181). -/
def flattened (slope : Int) (l : List (Int × Cx)) : List Cx :=
  l.map (fun x => rotated x.2 (-((x.1 - (l.head?.map (·.1)).getD 0) * slope)))

/-- A phase step of 2^-40 turn a symbol, `rate` symbols a second as a quotient, in 0.001 Hz to the nearest. -/
def milliHertz (rate : Nat × Nat) (a : Int) : Int :=
  rdiv (a * 1000 * ((rate.1 : Nat) : Int)) (turn * ((max rate.2 1 : Nat) : Int))

/-- What a tap supplies to the bearing engine from its correlations, each with its place in symbols: the mean with its slope
removed, the SNR in thousandths, and the slope in 0.001 Hz; `prior` is the tracker's step a symbol (R153, R181). -/
def tapMeas (p : Port) (rate : Nat × Nat) (prior : Int) (l : List (Int × Cx)) : PilotMeas :=
  let slope := match l with
    | [] => 0
    | a :: t => slopeOf prior (unwrapped prior a (angleOf a.2) t)
  let f := flattened slope l
  let n : Int := max 1 l.length
  let m := Cx.sum f
  let a : Cx := { re := rdiv m.re n, im := rdiv m.im n }
  let var := (f.map (fun z => (z.sub a).energy)).sum
  { port := p, snr := 1000 * a.energy * l.length / max 1 var, re := a.re, im := a.im, dop := milliHertz rate slope }

end Sys2Proof.Machine
end

