-- ==== Sys2Proof/Machine/Chain.lean ====
section
/-! DEFINITION. A port's samples and what is read from them: the decimator (R155, R156), correlations at quarter-chip offsets
(R161, R165, R166, R181), the interpolator and the derotator (R176, R177), and the demodulation chain of a Stamet frame from
its lock to its CRC-24 (R173, R174, R178 to R180). -/

namespace Sys2Proof.Machine

/-- The decimation factor for a chip of `c` E-cycles, and the decimated rate in kS/s: 4 samples a chip of the 24.576 MS/s
taken (R155, R156). -/
def decimationOf (c : Nat) : Nat := max 1 (c / 40)
def decimatedRate (c : Nat) : Nat := 24576 / decimationOf c

/-- A value taken at one gain at the scale of GAIN 30, over 2^`k` (R230). -/
def atGain30 (k g : Nat) (z : Cx) : Cx :=
  let a := ampOf (2000 * (30 - (g : Int)))
  let n : Int := ((2 ^ (60 + k) : Nat) : Int)
  { re := rdiv (z.re * a) n, im := rdiv (z.im * a) n }

/-- The decimated samples of a block of a port that began at `start`, one for each decimation factor of samples, which come in
2^-16 of a sample's step and leave in 2^-5 (R155, R156; log entry 89). -/
def decimate (p : Port) (start c g : Nat) (l : List Cx) : RxBlock :=
  let d := decimationOf c
  { from_ := start,
    xs := (List.range (l.length / d)).map (fun k => atGain30 11 g (Config.lowPass p.val start d k (l.take ((k + 1) * d)))) }

/-- The decimated sample that covers an E-cycle; nothing where no block holds it. `c` is the chip. -/
def sampleAt (c : Nat) (b : List RxBlock) (t : Nat) : Cx :=
  let q := max 1 (c / 4)
  match b.find? (fun x => decide (x.from_ < t ∧ t ≤ x.from_ + q * x.xs.length)) with
  | some x => x.xs.getD ((t - x.from_ - 1) / q) Cx.zero
  | none => Cx.zero

/-- The correlation with chips whose last one ends at E-cycle `t`: four samples a chip (R155, R161, R165). -/
def correlate (c : Nat) (b : List RxBlock) (chips : List Bool) (t : Nat) : Cx :=
  let q := max 1 (c / 4)
  let n := 4 * chips.length
  Cx.sum ((List.range n).map (fun i => Cx.smul (chipSign (chips.getD (i / 4) false)) (sampleAt c b (t + q * (i + 1) - q * n))))

/-- The correlations of a code with the `n` symbols up to `t`, oldest first (R165). -/
def symbolsUpTo (c : Nat) (b : List RxBlock) (chips : List Bool) (t n : Nat) : List Cx :=
  (List.range n).map (fun i => correlate c b chips (t + 16 * c * (i + 1) - 16 * c * n))

/-- A symbol's polarity is 1: its correlation lies against the phase of the locked preamble, turned on by the coarse step of
the `n` symbols between (R166; log entry 65). -/
def inverted (ref : Cx) (coarse : Int) (n : Nat) (z : Cx) : Bool := decide ((z.mul (rotated ref ((n : Int) * coarse)).conj).re < 0)

/-- The polarities of the 16 symbols up to `e`, the first in bit 15, of a frame that locked at `lock` (R166). -/
def polarities (c : Nat) (b : List RxBlock) (chips : List Bool) (lock : Nat) (coarse : Int) (e : Nat) : BitVec 16 :=
  let ref := correlate c b chips lock
  BitVec.ofNat 16 (natOfBits (List.zipWith (fun i z => inverted ref coarse ((e - lock) / (16 * c) + i - 15) z)
    (List.range 16) (symbolsUpTo c b chips e 16)))

/-- What a chain goes by: the port's samples, the chip, the frame's lock, its code set, the equaliser's settings and the loop
bandwidth, and the training amplitude, the mean chip of the lock's last symbol (R173, R176 to R179). -/
structure ChainCfg where
  buf : List RxBlock
  chip : Nat
  lock : Nat
  cs : Nat
  eq : EqCfg
  bw : Nat
  amp : Int
  deriving DecidableEq, Repr

/-- The decimated sample `i` after the lock; before it where `i` is negative. -/
def ChainCfg.sample (g : ChainCfg) (i : Int) : Cx :=
  sampleAt g.chip g.buf (((g.lock : Int) + (g.chip / 4 : Nat) * (i + 1)).toNat)

/-- The interpolator: the value at a place in 2^-16 chip from the lock, taken to 1/64 chip (R177; log entry 89). -/
def ChainCfg.value (g : ChainCfg) (pos : Int) : Cx :=
  let k := rdiv pos 1024
  let n := k / 16
  let fr := (k % 16).toNat
  if fr = 0 then g.sample n else Config.interpolated fr ((List.range 8).map (fun (i : Nat) => g.sample (n - 3 + (i : Int))))

/-- The on-time correlation of chips that begin at a place: four values a chip (R155, R177). -/
def ChainCfg.corr (g : ChainCfg) : Int → List Bool → Cx
  | _, [] => Cx.zero
  | pos, b :: t =>
    (Cx.smul (chipSign b) (Cx.sum ((List.range 4).map (fun (i : Nat) => g.value (pos + 16384 * (i : Int)))))).add
      (g.corr (pos + 65536) t)

/-- The chain within a frame: trackers, equaliser, the raw training correlation, and the pilots taken, newest first: each
with the place where it ends, its correlation and the tracked step before it (R173, R176 to R181). -/
structure Chain where
  loop : Loop
  eq : EqSt
  ref : Cx
  pilots : List (Int × Cx × Int)
  deriving DecidableEq, Repr

/-- The derotator: a value turned back by the tracked phase at its place, in 1/256 of the training amplitude (R176). -/
def Chain.level (g : ChainCfg) (c : Chain) (pos : Int) : Cx :=
  let z := rotated (g.value pos) (-(c.loop.ph + rdiv (c.loop.f * (pos - c.loop.pos - symbolSpan / 2)) symbolSpan))
  { re := rdiv (z.re * unitAmp) g.amp, im := rdiv (z.im * unitAmp) g.amp }

/-- The window of the `i`-th chip of the symbol in hand: eight values half a chip apart around the chip's (R178; log entry
62). -/
def Chain.window (g : ChainCfg) (c : Chain) (i : Nat) : List Cx :=
  (List.range 8).map (fun (k : Nat) =>
    c.level g (c.loop.pos + 65536 * (i : Int) + 16384 + 32768 * ((k : Int) - (centreTap : Int))))

/-- The chips of the symbol in hand, each with its window. -/
def Chain.chips (g : ChainCfg) (c : Chain) (ch : List Bool) : List (Bool × List Cx) :=
  List.zipWith (fun i b => (b, c.window g i)) (List.range ch.length) ch

/-- ±2 kHz as a phase step a symbol (R176). -/
def ChainCfg.lim (g : ChainCfg) : Int := maxStep (16 * g.chip)

/-- A known symbol: it updates the trackers and trains the equaliser; a pilot is kept for the taps (R176 to R178). -/
def Chain.known (g : ChainCfg) (pilot : Bool) (ch : List Bool) (c : Chain) : Chain :=
  let z := g.corr c.loop.pos ch
  let ws := c.chips g ch
  let l := c.loop.update g.bw g.lim z (g.corr (c.loop.pos - 16384) ch) (g.corr (c.loop.pos + 16384) ch)
  { loop := l, eq := train g.eq ws c.eq, ref := c.ref.add (trainRef ws),
    pilots := if pilot then (c.loop.pos + symbolSpan, z, c.loop.f) :: c.pilots else c.pilots }

/-- The reference of polarity: the training set it on the real axis, or, with the equaliser bypassed, the raw training
correlation (R178, R180). -/
def Chain.pol (g : ChainCfg) (c : Chain) : Cx := if g.eq.en then { re := 1, im := 0 } else c.ref.conj

/-- `n` data symbols from number `i`; after every seventh, and at the frame's end, a pilot is no data (R80, R180). `last`: the
frame ends with them. -/
def Chain.data (g : ChainCfg) (sf4 last : Bool) : Nat → Nat → Chain → List Bool × Chain
  | 0, _, c => ([], c)
  | n + 1, i, c =>
    let a := dataSymbol g.eq (c.pol g) sf4 (c.chips g (codeChips (codeCd g.cs))) c.eq
    let c := { c with eq := a.2, loop := c.loop.pass }
    let c := if i % 7 = 0 || (last && n = 0) then c.known g true (codeChips (codeCt g.cs)) else c
    let r := Chain.data g sf4 last n (i + 1) c
    (a.1 ++ r.1, r.2)

/-- The chain at a replay's start, at the frame's lock (R173). `ref` is the lock's last symbol. -/
def Chain.start (g : ChainCfg) (coarse : Int) (ref : Cx) : Chain :=
  { loop := Loop.start g.lim coarse ref, eq := EqSt.start, ref := Cx.zero, pilots := [] }

/-- A Stamet frame: `pre` preamble symbols and the sync word train, the header fixes what follows (R173, R174, R178 to
R180). -/
def demodulate (g : ChainCfg) (sync : BitVec 16) (pre : Nat) (c : Chain) : RxContent × Chain :=
  let cp := codeCp g.cs
  let c := (List.replicate pre (symbolChips cp false)).foldl (fun c s => c.known g false s) c
  let c := (bitsMsb 16 sync.toNat).foldl (fun c b => c.known g false (symbolChips cp b)) c
  let h := Chain.data g false false 8 1 c
  let hdr := BitVec.ofNat 8 (natOfBits h.1)
  if badHeader hdr then (.stamet hdr [] 0, h.2)
  else
    let r := Chain.data g (psfOf hdr) true (payloadSymbols hdr) 9 h.2
    (.stamet hdr (wordsOfBits (wordsOf hdr) r.1) (BitVec.ofNat 24 (natOfBits ((r.1.drop (16 * wordsOf hdr)).take 24))), r.2)

/-- The E-cycle in which a place from the lock lies. -/
def ChainCfg.instant (g : ChainCfg) (pos : Int) : Nat := ((g.lock : Int) + rdiv (pos * (g.chip : Int)) 65536).toNat

/-- The ends of the pilots a chain has taken, oldest first. -/
def Chain.pilotEnds (g : ChainCfg) (c : Chain) : List Nat := c.pilots.reverse.map (fun x => g.instant x.1)

/-- The pilots, oldest first, each with its place in symbols from the frame's lock. -/
def Chain.pilotPoints (c : Chain) : List (Int × Cx) := c.pilots.reverse.map (fun x => (rdiv x.1 symbolSpan, x.2.1))

end Sys2Proof.Machine
end

