-- ==== Sys2Proof/Machine/Frames.lean ====
section
/-! DEFINITION. Forward frames as bits and lengths: Stamet (R64, R69, R70, R96 to R103) and ISO/IEC 18000-63 (R273 to R275,
R279, R280), with what the receiver expects after each (R83, R86, R174). -/

namespace Sys2Proof.Machine

/-- E-cycles per chip of CR (R71). -/
def chipOf (cr : Nat) : Nat := if cr = 0 then 640 else if cr = 1 then 320 else 160

/-- Tu in E-cycles (R64, R388). -/
def tuOf (tu : Nat) : Nat := if tu = 0 then 768 else if tu = 1 then 1536 else 3072

/-- Bits with their CRC-16 (R69). -/
def withCrc (bs : List Bool) : List Bool := bs ++ bitsMsb 16 (crc16 bs)

/-- The opcode and RL fields every Stamet command but WAKE begins with (R91, R96). -/
def stHead (opc : Nat) (rid : BitVec 8) : List Bool := bitsMsb 4 opc ++ bitsMsb 2 (rid.toNat % 4)

/-- WAKE (R96, R97). -/
def stWake (j : Job) (redraw : Bool) (pfx : List Bool) : List Bool :=
  withCrc (bitsMsb 4 1 ++ bitsMsb 8 j.rid.toNat ++ bitsMsb 2 j.st.cr ++ bitsMsb 2 j.st.cs ++ [j.st.all, redraw] ++
    bitsMsb 5 pfx.length ++ pfx)

/-- WALK (R96). -/
def stWalk (rid : BitVec 8) (pfx : List Bool) : List Bool := withCrc (stHead 2 rid ++ bitsMsb 5 pfx.length ++ pfx)

/-- WALK0 or WALK1, with its even parity (R70, R96). -/
def stExtend (rid : BitVec 8) (b : Bool) : List Bool :=
  let bs := stHead (if b then 4 else 3) rid
  bs ++ [bs.foldl (fun a x => a != x) false]

/-- A prefix as TICKET: the known bits followed by zeros (R98, R107). -/
def ticketBits (pfx : List Bool) : List Bool := pfx ++ List.replicate (32 - pfx.length) false

/-- SELECT of the leading bits of a ticket (R96, R98). -/
def stSelect (j : Job) (pfx : List Bool) : List Bool :=
  withCrc (stHead 5 j.rid ++ bitsMsb 5 (pfx.length - 1) ++ ticketBits pfx ++ [j.st.nsf])

/-- The bits of a held ticket. -/
def heldTicket (j : Job) : List Bool := bitsMsb 32 j.ticket.toNat

/-- READ or SENSE (R96, R99, R102). -/
def stAction (j : Job) : List Bool :=
  if j.st.action = 2 then withCrc (stHead 0xB j.rid ++ bitsMsb 4 j.st.chan)
  else withCrc (stHead 6 j.rid ++ bitsMsb 8 j.st.addr ++ bitsMsb 4 j.st.cnt ++ [j.st.dsf])

/-- A frame reply's window of 21.0 µs, of SENSE and of COMMIT, in E-cycles (R83, R86). -/
def winShort : Expect := .frame 5161
def winSense : Expect := .frame 245760
def winCommit : Expect := .frame 1966080

/-- What ACTION expects (R83). -/
def actionExpect (j : Job) : Expect := if j.st.action = 2 then winSense else winShort

/-- KINDs a READ or SENSE allows (R78, R99, R102, R103). -/
def actionKinds (j : Job) : List Nat := if j.st.action = 2 then [3, 4] else [1, 4]

/-- KINDs a host-built frame allows, by its opcode (R78, R96). -/
def rawKinds (bs : List Bool) : List Nat :=
  let opc := natOfBits (bs.take 4)
  if opc = 5 then [0] else if opc = 6 then [1, 4] else if opc = 7 ∨ opc = 8 then [2, 4] else if opc = 0xB then [3, 4]
  else [0, 1, 2, 3, 4]

/-- What REPLY of ST_RAW selects (R393). -/
def rawExpect (r : Nat) : Expect :=
  if r = 0 then .none else if r = 1 then .bit else if r = 2 then winShort else if r = 3 then winSense else winCommit

/-- The Stamet frame of a job's step, what its receiver expects, and the KINDs allowed. -/
def stFrame (j : Job) : List Bool × Expect × List Nat :=
  match j.step with
  | .redraw pfx => (stWake j true pfx, .none, [])
  | .node asWalk =>
    (if asWalk then stWalk j.rid j.walk.pfx else stExtend j.rid (j.walk.pfx.getLast?.getD false), .bit, [])
  | .early pfx => (stSelect j pfx, winShort, [0])
  | .sel32 ticket => (stSelect j ticket, winShort, [0])
  | .reselect _ => (stSelect j (heldTicket j), winShort, [0])
  | .action => (stAction j, actionExpect j, actionKinds j)
  | .one => (stAction j, actionExpect j, actionKinds j)
  | .halt _ => (withCrc (stHead 9 j.rid), .bit, [])
  | .prepare _ => (withCrc (stHead 7 j.rid ++ bitsMsb 8 j.st.addr ++ bitsMsb 16 j.st.data.toNat), winShort, [2, 4])
  | .commit _ => (withCrc (stHead 8 j.rid ++ bitsMsb 8 j.st.addr), winCommit, [2, 4])
  | .raw => (if j.rawCrc then withCrc j.rawBits else j.rawBits, rawExpect j.rawReply, rawKinds j.rawBits)
  | _ => (stWake j false [], .none, [])

/-- An element of a forward frame: E-cycles of carrier high, then of carrier low, at the 50 % points (R64, R66). -/
structure Pulse where
  high : Nat
  low : Nat
  deriving DecidableEq, Repr

/-- The E-cycles of a train of elements. -/
def trainLength (l : List Pulse) : Nat := (l.map (fun p => p.high + p.low)).sum

/-- A Stamet data symbol (R64). -/
def stSymbol (t : Nat) (b : Bool) : Pulse := { high := (if b then 5 else 3) * t / 2, low := t / 2 }

/-- A Stamet frame: start mark, calibration symbol, and a data symbol for each bit (R64, R65). -/
def stTrain (tu : Nat) (bs : List Bool) : List Pulse :=
  let t := tuOf tu
  { high := 0, low := 3 * t / 2 } :: { high := 7 * t / 2, low := t / 2 } :: bs.map (stSymbol t)

/-- A Stamet frame's length (R64, R96). -/
def stLength (tu : Nat) (bs : List Bool) : Nat := trainLength (stTrain tu bs)

/-- DEPTH as it acts, in per cent: from 30 to 100 (R63, R207); in an ISO/IEC 18000-63 frame at least 80 (R273). -/
def depthUsed (w : Word) (iso : Bool) : Nat :=
  let d := max 30 (min 100 (fld w 6 0))
  if iso then max d 80 else d

/-- The full ramp of an edge in 1/40 E-cycle: 0.100, 0.125 or 0.150 of Tu, or of Tari; 0b11 acts as 0b10 (R206, R273). -/
def rampUsed (w : Word) (t : Nat) : Nat := t * (4 + min 2 (fld w 9 8))

/-- The envelope on an edge, in 2^-48 of the high level: a raised cosine from one level to the other, centred on the
nominal instant; `x` is the time from the centre in 1/40 E-cycle, `ramp` the full ramp, `depth` the depth in per cent
(R63, R206). -/
def envelope (ramp depth : Nat) (rising : Bool) (x : Int) : Int :=
  let one : Int := 281474976710656
  let low := one * (100 - (depth : Int)) / 100
  let y : Int := if rising then x else -x
  if 2 * y ≤ -(ramp : Int) then low
  else if (ramp : Int) ≤ 2 * y then one
  else low + (one - low) * (one + (cosSin (turn * y / (2 * (ramp : Int)))).2) / (2 * one)

/-- The no-reply deadline from the frame end (R86). -/
def stDeadline (x : Expect) (chip : Nat) : Nat :=
  match x with
  | .none => 0
  | .bit => 5161 + 34 * chip
  | .frame close => close + 400 * chip

/-- Data-1 in E-cycles (R273, R395). -/
def data1Of (l : IsoLink) : Nat := l.tari * (6 + l.data1) / 4

/-- RTcal and TRcal (R273). -/
def rtcalOf (l : IsoLink) : Nat := l.tari + data1Of l
def trcalOf (l : IsoLink) : Nat :=
  let n := if l.dr643 then 5242880 else 1966080
  (2 * n + l.blf) / (2 * l.blf)

/-- `k` Tpri in E-cycles, rounded up (R275, R278, R279). -/
def tpriUp (l : IsoLink) (k : Nat) : Nat :=
  let n := if l.dr643 then 3 * trcalOf l else trcalOf l
  let d := if l.dr643 then 64 else 8
  (k * n + d - 1) / d

/-- M of the coding: the Tpri of one symbol (R277). -/
def symTpri (l : IsoLink) : Nat := if l.coding = 0 then 1 else 2 ^ l.coding

/-- Preamble symbols searched (R277). -/
def preSymbols (l : IsoLink) : Nat :=
  if l.coding = 0 then (if l.trext then 18 else 6) else (if l.trext then 22 else 10)

/-- 1.1 × RTcal ≤ TRcal ≤ 3 × RTcal (R275). -/
def linkOk (l : IsoLink) : Bool := decide (11 * rtcalOf l ≤ 10 * trcalOf l ∧ trcalOf l ≤ 3 * rtcalOf l)

/-- T2 and T4 (R279). -/
def isoT2 (l : IsoLink) : Nat := tpriUp l 10
def isoT4 (l : IsoLink) : Nat := 2 * rtcalOf l

/-- The no-reply deadline from the frame end, for an immediate or a delayed reply (R279). -/
def isoDeadline (l : IsoLink) (delayed : Bool) : Nat :=
  (if delayed then 4915200 else Config.isoT1Max (rtcalOf l) (trcalOf l) l.dr643) +
    tpriUp l (preSymbols l * symTpri l + 4)

/-- An ISO/IEC 18000-63 reply to a step carries a CRC-16; RN16, and the handle of a Req_RN, carry none (R278; log entry
22). -/
def replyHasCrc : AirStep → Bool
  | .gAck _ => true
  | .gAccess _ => true
  | .gOp _ => true
  | _ => false

/-- Bits with the standard's CRC-16, the complement of the fold of R69 (R280; log entry 22). -/
def isoCrc (bs : List Bool) : List Bool := bs ++ bitsMsb 16 (crc16 bs ^^^ 0xFFFF)

/-- An extensible bit vector of the standard: blocks of 7 bits, an extension bit before each (R280; log entry 22).
`n` bounds the blocks before the last. -/
def ebvHead : Nat → Nat → List Bool
  | 0, _ => []
  | n + 1, v => if v = 0 then [] else ebvHead n (v / 128) ++ (true :: bitsMsb 7 (v % 128))
def ebv (v : Nat) : List Bool := ebvHead 5 (v / 128) ++ (false :: bitsMsb 7 (v % 128))

/-- Select, Truncate = 0 (R280, R281). -/
def isoSelect (b : SelBlock) : List Bool :=
  isoCrc (bitsMsb 4 0xA ++ bitsMsb 3 b.target ++ bitsMsb 3 b.action ++ bitsMsb 2 b.bank ++ ebv b.pointer.toNat ++
    bitsMsb 8 b.length ++ (wordsBits b.mask).take b.length ++ [false])

/-- Query with its CRC-5 (R280). -/
def isoQuery (j : Job) : List Bool :=
  let bs := bitsMsb 4 8 ++ [j.g.link.dr643] ++ bitsMsb 2 j.g.link.coding ++ [j.g.link.trext] ++ bitsMsb 2 j.g.sel ++
    bitsMsb 2 j.g.link.session ++ [j.target] ++ bitsMsb 4 j.slots.q
  bs ++ bitsMsb 5 (crcFold 5 0x09 0x09 bs)

/-- QueryRep, or QueryAdjust up or down (R280, R284). -/
def isoSlot (j : Job) (adjust : Option Bool) : List Bool :=
  match adjust with
  | none => bitsMsb 2 0 ++ bitsMsb 2 j.g.link.session
  | some up => bitsMsb 4 9 ++ bitsMsb 2 j.g.link.session ++ bitsMsb 3 (if up then 6 else 3)

/-- Req_RN: on the RN16 for the handle, on the handle for a cover code (R280). -/
def isoReqRn (j : Job) (part : Nat) : List Bool :=
  isoCrc (bitsMsb 8 0xC1 ++ bitsMsb 16 (if part = 0 then j.rn16 else j.handle).toNat)

/-- Half of a password or a word, under the cover code (R280). -/
def covered (j : Job) (v : Nat) : List Bool := bitsMsb 16 ((v % 2 ^ 16) ^^^ j.cover.toNat)

/-- A half of a 32-bit password, the first half first. -/
def halfOf (w : Word) (half : Nat) : Nat := if half = 0 then fld w 31 16 else fld w 15 0

/-- The operation of a G_ command, or of a round's ACTION (R280, R282, R396): G_READ, G_WRITE, G_LOCK, G_KILL. -/
def isoOp (j : Job) (half : Nat) : List Bool :=
  let w := j.g.args.headD 0
  let h := bitsMsb 16 j.handle.toNat
  let data := (j.g.args.drop 1).flatMap halves
  if j.opcode = 0x52 then
    let n := fld w 28 24
    let head := bitsMsb 2 (fld w 31 30) ++ ebv (fld w 15 0)
    if bitAt w 29 then isoCrc (bitsMsb 8 0xC8 ++ head ++ bitsMsb 8 n ++ h)
    else if n = 1 then isoCrc (bitsMsb 8 0xC3 ++ head ++ covered j (data.headD 0).toNat ++ h)
    else isoCrc (bitsMsb 8 0xC7 ++ head ++ bitsMsb 8 n ++ (data.take n).flatMap (fun d => bitsMsb 16 d.toNat) ++ h)
  else if j.opcode = 0x53 then isoCrc (bitsMsb 8 0xC5 ++ bitsMsb 20 (fld w 19 0) ++ h)
  else if j.opcode = 0x54 then isoCrc (bitsMsb 8 0xC4 ++ covered j (halfOf w half) ++ bitsMsb 3 0 ++ h)
  else if j.opcode = 0x51 then
    isoCrc (bitsMsb 8 0xC2 ++ bitsMsb 2 (fld w 31 30) ++ ebv (fld w 15 0) ++ bitsMsb 8 (fld w 27 24) ++ h)
  else isoCrc (bitsMsb 8 0xC2 ++ bitsMsb 2 j.g.rbank ++ ebv j.g.rptr ++ bitsMsb 8 j.g.rcnt ++ h)

/-- What an ISO frame is followed by: nothing, an immediate or a delayed reply (R279, R280). -/
inductive IsoReply where
  | none
  | immediate
  | delayed
  deriving DecidableEq, Repr

/-- The ISO/IEC 18000-63 frame of a job's step, whether it opens with the preamble (R274), and the reply it draws. -/
def isoFrame (j : Job) : List Bool × Bool × IsoReply :=
  match j.step with
  | .gSelect i => (isoSelect (j.g.selects.getD i { target := 4, action := 0, bank := 1, pointer := 0, length := 0, mask := [] }),
      false, .none)
  | .gSlot adj => (isoSlot j adj, false, .immediate)
  | .gAck _ => (bitsMsb 2 1 ++ bitsMsb 16 j.rn16.toNat, false, .immediate)
  | .gNak => (bitsMsb 8 0xC0, false, .none)
  | .gReqRn part => (isoReqRn j part, false, .immediate)
  | .gAccess half => (isoCrc (bitsMsb 8 0xC6 ++ covered j (halfOf j.g.apwd half) ++ bitsMsb 16 j.handle.toNat), false, .immediate)
  | .gOp half => (isoOp j half, false, if 0x52 ≤ j.opcode ∧ j.opcode ≤ 0x54 then .delayed else .immediate)
  | .raw => (j.rawBits, bitAt (j.g.args.headD 0) 29,
      if j.rawReply = 0 then .none else if j.rawReply = 1 then .immediate else .delayed)
  | _ => (isoQuery j, true, .immediate)

/-- The low pulse PW in E-cycles: 0.35, 0.425 or 0.50 Tari, to the nearest (R273). -/
def pwOf (l : IsoLink) : Nat := (2 * l.tari * (14 + 3 * l.pw) + 40) / 80

/-- A PIE symbol of a length, its low pulse last (R273). -/
def pieSymbol (l : IsoLink) (n : Nat) : Pulse := { high := n - pwOf l, low := pwOf l }

/-- An ISO/IEC 18000-63 frame: delimiter, data-0, RTcal, in the preamble TRcal, and a symbol for each bit (R273, R274). -/
def isoTrain (l : IsoLink) (preamble : Bool) (bs : List Bool) : List Pulse :=
  { high := 0, low := 3072 } :: pieSymbol l l.tari :: pieSymbol l (rtcalOf l) ::
    ((if preamble then [pieSymbol l (trcalOf l)] else []) ++ bs.map (fun b => pieSymbol l (if b then data1Of l else l.tari)))

/-- An ISO/IEC 18000-63 frame's length (R273, R274). -/
def isoLength (l : IsoLink) (preamble : Bool) (bs : List Bool) : Nat := trainLength (isoTrain l preamble bs)

end Sys2Proof.Machine
end

