-- ==== Sys2Proof/Machine/Receiver.lean ====
section
/-! DEFINITION. The return-link receiver of a group through one exchange: phases (R157), noise floor (R158), digital and RF
cancellers (R159, R226, R228), AGC and headroom guard (R160, R231, R232), overload (R239), Trapeze (R165 to R173), verdicts
(R174, R185) and the bit classifier (R161 to R163). -/

namespace Sys2Proof.Machine

/-- The exchange of a group. -/
def exchOf (s : State) (q : Quad) : Option Exch := s.quads[lead s q].exch

/-- A group's exchange changed. -/
def updExch (s : State) (q : Quad) (f : Exch → Exch) : State :=
  s.updQuad (lead s q) (fun x => { x with exch := x.exch.map f })

/-- The exchange a port takes part in. -/
def portExch (s : State) (p : Port) : Option Exch := exchOf s (quadOf p)

/-- A port takes part in classification and combination: RX_EN in use, not overloaded (R161, R182, R239). -/
def takesPart (s : State) (p : Port) : Bool :=
  portPresent s p && bitAt (s.inUse (aPort p 0x10)) 24 && !s.ports[p].ovld

/-- The receiver of a port in the hunt or finish phase (R157). -/
def listening (x : Exch) : Bool := x.phase == .hunt || x.phase == .finish

/-- The hunt phase of the exchange has begun. -/
def heard (x : Exch) : Bool := listening x || x.phase == .past

/-- The energy a full-scale tone gives a 16-chip correlation, the power of a full-scale sample, and a full-scale weight's
(R158, R228, R230, R236). -/
def fullScale : Nat := 281474976710656
def fullSample : Nat := 67108864
def fullWeight : Nat := 4194304

/-- Flags and chains of a group's ports as an exchange begins. -/
def clearChains (s : State) (q : Quad) : State :=
  each (groupPorts s q) (fun p t => t.updPort p (fun x => { x with
    recv := none, standby := none, capt := false, clip := false, falseSeen := false, crcFail := false, valid := false,
    ovld := false, frozenGain := none, buf := [] })) s

/-- GAIN of a port. -/
def gainOf (s : State) (p : Port) : Nat := fld (s.reg (aPort p 0x12)) 4 0

/-- The digital canceller holds its estimate: from the start of the hunt until the finish phase ends (R159). -/
def dsjHeld (s : State) (p : Port) : Bool := match portExch s p with | some x => listening x | none => false

/-- An estimate under a change of gain of `d` steps of 2 dB (R159). -/
def rescaled (c : Cx) (d : Int) : Cx :=
  let a := ampOf (2000 * d)
  { re := rdiv (c.re * a) 1152921504606846976, im := rdiv (c.im * a) 1152921504606846976 }

/-- A port's gain is set; while the digital canceller holds, its estimate is rescaled (R159, R187). -/
def setGain (s : State) (p : Port) (g : Nat) : State :=
  let d : Int := (g : Int) - gainOf s p
  let s := if dsjHeld s p && d != 0 then s.updPort p (fun x => { x with dsj := rescaled x.dsj d }) else s
  s.setRegFld (aPort p 0x12) 4 0 g

/-- With MAN = 1 the gain is MAN_GAIN throughout (R160). -/
def manualGain (s : State) (p : Port) : State :=
  let c := s.inUse (aPort p 0x12)
  if bitAt c 15 then setGain s p (min 30 (fld c 20 16)) else s

/-- Settings written during an exchange are in use from a frame end: receive chain, combination, I/Q and receive
corrections (R188, R235, R305). -/
def frameEndWords (s : State) (q : Quad) : State :=
  let s := each (groupPorts s q) (fun p t =>
    manualGain (each [0x10, 0x11, 0x12, 0x13, 0x0A, 0x33, 0x34, 0x35, 0x36] (fun o u => u.apply1 (aPort p o)) t) p) s
  each (groupOf s q) (fun r t => t.apply1 (aRxcmb r)) s

/-- A port's gain freezes; HR_LIMIT says whether the headroom cap held it, which it never does with
MAN = 1 (R160, R231). -/
def freezeGain (s : State) (p : Port) : State :=
  if bitAt (s.reg (aPort p 0x12)) 5 then s
  else
    let s := (s.setRegBit (aPort p 0x12) 5 true).setRegBit (aPort p 0x0B) 1
      (s.ports[p].hrHeld && !bitAt (s.inUse (aPort p 0x12)) 15)
    s.updPort p (fun x => { x with frozenGain := some (gainOf s p) })

/-- The gains of a group are released (R160). -/
def releaseGains (s : State) (q : Quad) : State :=
  each (groupPorts s q) (fun p t => t.setRegBit (aPort p 0x12) 5 false) s

/-- The finish phase ends: nothing is on its way to a verdict any more, and the gains are released (R157, R160). -/
def endFinish (s : State) (q : Quad) : State := releaseGains (updExch s q (fun x => { x with phase := .past })) q

/-- A frame that may still come to a verdict: it has synced, or its declaration of a sync by the deadline may still be on
its way (R86, R157, R185). -/
def mayComplete (s : State) (x : Exch) (c : Option Cand) : Bool :=
  c.any (fun c => c.sync.isSome || decide (s.ecyc ≤ x.deadline + x.chip + 24))

/-- The finish phase of a group's exchange ends once no port holds a frame that may come to a verdict (R157). -/
def checkFinish (s : State) (q : Quad) : State :=
  match exchOf s q with
  | some x =>
    if x.phase = .finish ∧ x.expects ≠ .bit ∧
        (groupPorts s q).all (fun p => !mayComplete s x s.ports[p].recv && !mayComplete s x s.ports[p].standby) then endFinish s q
    else s
  | none => s

/-- The LNA state of a gain: 0 BYPASS, 1 MID, 2 HIGH (R230). -/
def lnaOf (g : Nat) : Nat := if g < 6 then 0 else if g < 12 then 1 else 2

/-- G in dB (R230). -/
def gainDb (g : Nat) : Int := 2 * (g : Int) - 6

/-- PH and GN of a correction word (R315). -/
def calPh (w : Word) : Int := sext 16 (fld w 15 0)
def calGn (w : Word) : Int := sext 16 (fld w 31 16)

/-- The correction for a port at a gain: the word of its LNA state, or none with GPH_EN = 0 (R232, R305). -/
def rxWord (s : State) (p : Port) (g : Nat) : Word :=
  if bitAt (s.reg (aPort p 0x08)) 5 then s.inUse (aPort p (0x33 + lnaOf g)) else 0

/-- The I/Q correction in use, none with IQ_EN = 0: Q without what it carries of I, at I's gain (R234, R235, R245). -/
def iqCorrected (s : State) (p : Port) (z : Cx) : Cx :=
  let w := s.inUse (aPort p 0x0A)
  if w = 0 ∨ bitAt (s.reg (aPort p 0x08)) 4 = false then z
  else
    let a := cosSin (rdiv (2 * sext 10 (fld w 25 16) * turn) 36000)
    let n : Int := 1152921504606846976
    let q := rdiv (z.im * 281474976710656 - z.re * a.2) (max 1 a.1)
    { z with im := rdiv (q * ampOf (5 * sext 10 (fld w 9 0))) n }

/-- A sample under the I/Q correction and the multiplier at the ADC output, at a gain (R232, R234, R305). -/
def gainCorrected (s : State) (p : Port) (g : Nat) (z : Cx) : Cx :=
  let w := rxWord s p g
  let z := iqCorrected s p z
  if w = 0 then z else corrected z (calPh w) (calGn w)

/-- A tap's value under the board's receive offset in use (R181, R309). -/
def tapCorrected (s : State) (p : Port) (z : Cx) : Cx :=
  let w := s.inUse (aPort p 0x36)
  if w = 0 then z else corrected z (calPh w) (calGn w)

/-- NOISE_PHASE_START: 2,949 E-cycles after the frame end (R157). -/
def execNoisePhaseStart (q : Quad) (s : State) : Host.Outcome State Fault Refusal :=
  .next (match exchOf s q with
    | some x => if x.phase = .settle ∧ x.endAt + 2949 ≤ s.ecyc then updExch s q (fun y => { y with phase := .noise }) else s
    | none => s)

/-- The floor of a noise phase: the mean of the correlator energies, referred to RXIN through gain and gain calibration and
held at the scale of GAIN 30 (R158, R230). -/
def noiseFloor (s : State) (p : Port) (l : List Nat) : Ratio :=
  let g := gainOf s p
  let a := (ampOf (calGn (rxWord s p g) + 2000 * (30 - (g : Int)))).toNat
  { num := l.sum * a * a, den := l.length * 2 ^ 120 }

/-- A noise floor as PORT_RX_LEVEL.NOISE reports it: at RXIN, from -160 dBm in 0.5 dB (R158, R187). -/
def noiseByte (n : Ratio) : Nat :=
  byteOf (({ num := n.num, den := n.den * fullScale } : Ratio).inSteps 2 - 2 * gainDb 30 + 320)

/-- A port's floor is measured and held for the rest of the exchange (R158). -/
def noteNoise (s : State) (n : NoiseMeas) : State :=
  let r := noiseFloor s n.port n.energies
  (s.updPort n.port (fun x => { x with noise := r })).setRegFld (aPort n.port 0x15) 7 0 (noiseByte r)

/-- The hunt begins: noise floors are taken, and in a bit-reply exchange the gain freezes at no more than BIT_GAIN_MAX
(R158, R160, R187). -/
def beginHunt (s : State) (q : Quad) (x : Exch) (noise : List NoiseMeas) : State :=
  let s := each (noise.filter (fun n => (groupPorts s q).contains n.port && portPresent s n.port && !n.energies.isEmpty))
    (fun n t => noteNoise t n) s
  let s := updExch s q (fun y => { y with phase := .hunt })
  each (groupPorts s q) (fun p t =>
    if x.expects = .bit then
      let c := t.inUse (aPort p 0x12)
      freezeGain (if bitAt c 15 then t else setGain t p (min (gainOf t p) (min 30 (fld c 12 8)))) p
    else t) s

/-- HUNT_START: 4,424 E-cycles after the frame end (R157, R158). -/
def execHuntStart (q : Quad) (noise : List NoiseMeas) (s : State) : Host.Outcome State Fault Refusal :=
  .next (match exchOf s q with
    | some x => if x.phase = .noise ∧ x.endAt + 4424 ≤ s.ecyc then beginHunt s q x noise else s
    | none => s)

/-- NO_REPLY_DEADLINE: the hunt ends, and with no frame held the finish phase with it (R86, R157). -/
def execNoReplyDeadline (q : Quad) (s : State) : Host.Outcome State Fault Refusal :=
  .next (match exchOf s q with
    | some x =>
      if x.phase = .hunt ∧ x.deadline ≤ s.ecyc then checkFinish (updExch s q (fun y => { y with phase := .finish })) q else s
    | none => s)

/-- The AGC's step for one block, from the gain in force and the powers against full scale: the headroom cap, and the gain
wanted and taken. The wanted step is the error from -18 dBFS rounded to 2 dB (R160, R231). -/
def agcStep (g : Nat) (rms raw : Ratio) : Nat × Int × Nat :=
  let cap : Int := clampTo 0 30 ((g : Int) + bisect (fun k => !raw.exceeds (-12 - 2 * k)) 6 (-31) 33)
  let want : Int := (g : Int) + bisect (fun k => !rms.exceeds (-17 - 2 * k)) 4 (-6) 7
  (cap.toNat, want, (clampTo 0 30 (max ((g : Int) - 6) (min want cap))).toNat)

/-- One free AGC block of a port; in manual mode the gain is MAN_GAIN, which no cap holds (R160, R231). The cap held the
gain below its target where the range alone would not have (R231). -/
def agcFree (s : State) (p : Port) (rms raw : Ratio) : State :=
  let c := s.inUse (aPort p 0x12)
  if bitAt c 15 then manualGain (s.updPort p (fun x => { x with hrHeld := false })) p
  else
    let a := agcStep (gainOf s p) rms raw
    let s := s.updPort p (fun x => { x with hrHeld := decide ((a.1 : Int) < clampTo 0 30 a.2.1) })
    setGain (s.setRegFld (aPort p 0x0C) 20 16 a.1) p a.2.2

/-- Stage 1: sample n times exp(-j 2π n / 8), in 2^-16 of a sample's step; a block starts at a multiple of 8 (R155). -/
def lowIf (l : List Cx) : List Cx :=
  List.zipWith (fun (n : Nat) z => rotated (Cx.smul 65536 z) (-((n : Int) * (turn / 8)))) (List.range l.length) l

/-- 1 - exp(-10 / τ) of a DSJ_TC, the share an estimate moves by at each sample, in 2^-32 (R159; log entry 61). -/
def dsjShare (tc : Nat) : Int :=
  if tc = 0 then 335366829 else if tc = 1 then 86414908 else if tc = 2 then 21790756 else 5458085

/-- Stage 2: the estimate is subtracted from each sample, and tracks it unless `held`; the samples left and the estimate
(R155, R159). -/
def cancelled (share : Int) (held : Bool) : List Cx → Cx → List Cx × Cx
  | [], d => ([], d)
  | z :: t, d =>
    let e := z.sub d
    let d' := if held then d else d.add { re := rdiv (e.re * share) 4294967296, im := rdiv (e.im * share) 4294967296 }
    let r := cancelled share held t d'
    (e :: r.1, r.2)

/-- An ADC sample at the end of its range clips (R160, R236). -/
def clips (z : Cx) : Bool := decide (8191 ≤ z.re ∨ z.re ≤ -8192 ∨ 8191 ≤ z.im ∨ z.im ≤ -8192)

/-- The mean power of samples against full scale, `k` the square of their unit. -/
def powerOf (k : Nat) (l : List Cx) : Ratio := { num := (l.map Cx.energy).sum, den := l.length * fullSample * k }

/-- A calibration step holds the gain it forced on a group (R302). -/
def stepHolds (s : State) (q : Quad) : Bool := s.quads[lead s q].jug.stepFrom.isSome

/-- Samples of a port behind the I/Q correction, the multiplier, the low-IF shift and the digital canceller, and its estimate
after them (R155, R159, R232, R234). -/
def frontEnd (s : State) (p : Port) (l : List Cx) : List Cx × Cx :=
  cancelled (dsjShare (fld (s.inUse (aPort p 0x13)) 10 9)) (dsjHeld s p) (lowIf (l.map (gainCorrected s p (gainOf s p))))
    s.ports[p].dsj

/-- The samples an exchange's ports keep behind the decimator: of a Stamet exchange, from its frame end on (R155, R157). -/
def keptBlock (s : State) (p : Port) (start : Nat) (l : List Cx) : List RxBlock :=
  match portExch s p with
  | some x => if x.iso || x.phase == .blanked then [] else [decimate p start x.chip (gainOf s p) l]
  | none => []

/-- AGC_BLOCK: 16 samples of a port whose quad's field is on pass the front end into the decimator; the gain moves while it is
free, and clipping in the hunt or finish phase counts once in an exchange (R155, R156, R159, R160, R231, R232). A calibration
step holds the gain it forced (R302). -/
def execAgcBlock (p : Port) (samples : List Cx) (s : State) : Host.Outcome State Fault Refusal :=
  let q := quadOf p
  .next (if fieldIsOn s q && portPresent s p && decide (s.ports[p].agcAt ≤ s.ecyc ∧ samples.length = 16) then
    let s := checkFinish s q
    let r := frontEnd s p samples
    let b := keptBlock s p (s.ecyc - 160) r.1
    let s := s.updPort p (fun x => { x with agcAt := s.ecyc + 160, dsj := r.2, buf := b ++ x.buf })
    let s := if bitAt (s.reg (aPort p 0x12)) 5 || stepHolds s q then s
      else agcFree s p (powerOf 4294967296 r.1) (powerOf 1 samples)
    match portExch s p with
    | some x =>
      if samples.any clips && listening x && !s.ports[p].clip then
        bump (s.updPort p (fun y => { y with clip := true })) (aPort p 0x1A)
      else s
    | none => s
  else s)

/-- The canceller tracks: the field is on and no exchange holds it (R226). -/
def tracks (s : State) (p : Port) : Bool := portPresent s p && fieldIsOn s (quadOf p) && !dsjHeld s p

/-- A weight component held at its limits, int12 (R228, R245). -/
def weight (v : Int) : Int := clampTo (-2048) 2047 v

/-- Updates in a row with a component at one limit, after a move from `a` to `b` (R228). -/
def limitRun (n : Nat) (a b : Int) : Nat := if b = -2048 ∨ b = 2047 then (if a = b then n + 1 else 1) else 0

/-- The change of weight for RFC_MU and a residual: above 3 each step halves it (R226, R245). -/
def rfcChange (mu : Nat) (e : Cx) : Int × Int :=
  let r := Config.rfcStep (min mu 3) e.re e.im
  let d : Int := ((2 ^ (mu - 3) : Nat) : Int)
  (rdiv r.1 d, rdiv r.2 d)

/-- RESID: the residual at RXIN (R228, R230, R246). -/
def residByte (s : State) (p : Port) (e : Cx) : Nat :=
  byteOf (({ num := e.energy, den := fullSample } : Ratio).inSteps 2 - 2 * gainDb (gainOf s p) + 200)

/-- JAM: the self-jammer estimated from the weight, whose full scale is +13 dBm, to ±1.5 dB (R228, R246). -/
def jamByte (err : Fin 7) (a b : Int) : Nat :=
  byteOf (({ num := (a * a + b * b).toNat, den := fullWeight } : Ratio).inSteps 2 + 146 + (err.val : Int) - 3)

/-- RFC_UPDATE: 160 E-cycles after the last, the weight moves by the residual carrier measured ahead of the digital
canceller, while it tracks (R226, R228, R245). -/
def execRfcUpdate (p : Port) (e : Cx) (s : State) : Host.Outcome State Fault Refusal :=
  let s := checkFinish s (quadOf p)
  .next (if tracks s p && decide (s.ports[p].rfcAt ≤ s.ecyc) then
    let c := s.reg (aPort p 0x08)
    let w := s.reg (aPort p 0x09)
    let a0 := sext 12 (fld w 11 0)
    let b0 := sext 12 (fld w 27 16)
    let d := rfcChange (fld c 3 1) e
    let a := if bitAt c 0 then weight (a0 + d.1) else 0
    let b := if bitAt c 0 then weight (b0 + d.2) else 0
    let jam := jamByte (Config.jamError s.free) a b
    let res := residByte s p e
    let s := (s.updPort p (fun x => { x with
      rfcAt := s.ecyc + 160, rfcRunI := limitRun x.rfcRunI a0 a, rfcRunQ := limitRun x.rfcRunQ b0 b })).spend
    let s := s.setReg (aPort p 0x09) (put 0 12 (toBits 12 a) ||| put 16 12 (toBits 12 b))
    (s.setRegFld (aPort p 0x0C) 7 0 jam).setRegFld (aPort p 0x0C) 15 8 res
  else s)

/-- RFC_SAT: a component has stood at its limit for 16 consecutive updates (R228). -/
def execRfcSat (p : Port) (s : State) : Host.Outcome State Fault Refusal :=
  .next (if 16 ≤ s.ports[p].rfcRunI ∨ 16 ≤ s.ports[p].rfcRunQ then s.setRegBit (aPort p 0x0B) 8 true else s)

/-- OVERLOAD: a residual block above -20 dBm in the hunt or finish phase takes the port out of the exchange; a verdict it
delivered before stays (R239; log entry 68). -/
def execOverload (p : Port) (dbm : Int) (s : State) : Host.Outcome State Fault Refusal :=
  .next (match portExch s p with
    | some x =>
      if listening x && decide (-2000 < dbm) && !s.ports[p].ovld && portPresent s p then
        let s := s.updPort p (fun y => { y with ovld := true, recv := none, standby := none })
        checkFinish (bump (s.setRegBit (aPort p 0x0B) 9 true) (aPort p 0x0D)) (quadOf p)
      else s
    | none => s)

/-- PRE_MIN, and the sync allowance in E-cycles (R166, R187). -/
def preMin (s : State) (p : Port) : Nat := fld (s.inUse (aPort p 0x10)) 20 18 + 1
def allowanceOf (s : State) (p : Port) (x : Exch) : Nat := max 21 (24 - preMin s p) * 16 * x.chip

/-- PRE_THR in dB, 3 to 31 (R187). -/
def preThr (s : State) (p : Port) : Int := max 3 (fld (s.inUse (aPort p 0x11)) 4 0 : Int)

/-- M in dB (R168, R187). -/
def capMargin (s : State) (p : Port) : Int := (fld (s.inUse (aPort p 0x11)) 11 8 : Int)

/-- TRK_BW: 0b11 acts as 0b10 (R187). -/
def trkBw (s : State) (p : Port) : Nat := min 2 (fld (s.inUse (aPort p 0x10)) 28 27)

/-- The equaliser's settings in use; the steps are held to 2 to 12 (R178, R187). -/
def eqCfg (s : State) (p : Port) : EqCfg :=
  let c := s.inUse (aPort p 0x10)
  let e := s.inUse (aPort p 0x13)
  { en := bitAt e 8, fb := bitAt c 26, dd := bitAt c 25, muTrain := max 2 (min 12 (fld e 3 0)),
    muDd := max 2 (min 12 (fld e 7 4)) }

/-- An energy of a 16-chip correlation over the port's noise floor (R158). -/
def overFloor (s : State) (p : Port) (e : Nat) : Ratio :=
  { num := e * s.ports[p].noise.den, den := s.ports[p].noise.num }

/-- The mean energy of correlations over the port's noise floor (R165, R168). -/
def meanPower (s : State) (p : Port) (l : List Cx) : Ratio :=
  let r := overFloor s p (l.map Cx.energy).sum
  { r with den := r.den * l.length }

/-- The symbol period of an exchange in E-cycles (R156, R277). -/
def symbolOf (x : Exch) : Nat := if x.iso then tpriUp x.link (symTpri x.link) else 16 * x.chip

/-- What a port's chain goes by for a frame that locked at `lock` (R173, R176 to R179). -/
def chainCfg (s : State) (p : Port) (x : Exch) (lock : Nat) : ChainCfg :=
  let b := s.ports[p].buf
  { buf := b, chip := x.chip, lock := lock, cs := x.cs, eq := eqCfg s p, bw := trkBw s p,
    amp := max 1 ((Nat.sqrt (correlate x.chip b (codeChips (codeCp x.cs)) lock).energy / 64 : Nat) : Int) }

/-- A Stamet frame as a port's chain has it from its samples, and where the chain ends (R173). `e`: its sync. -/
def chainOf (s : State) (p : Port) (x : Exch) (c : Cand) (e : Nat) : RxContent × Chain :=
  let g := chainCfg s p x c.lockAt
  demodulate g (BitVec.ofNat 16 (fld (s.inUse (aPort p 0x10)) 15 0)) ((e - c.lockAt) / (16 * x.chip) - 16)
    (Chain.start g c.coarse (correlate x.chip g.buf (codeChips (codeCp x.cs)) c.lockAt))

/-- The correlations of the pilots of a Stamet frame that have ended by now (R168). -/
def pilotsSoFar (s : State) (p : Port) (x : Exch) (c : Cand) (e : Nat) : List Cx :=
  let g := chainCfg s p x c.lockAt
  ((chainOf s p x c e).2.pilots.reverse.filter (fun z => decide (g.instant z.1 ≤ s.ecyc))).map (fun z => z.2.1)

/-- The power of a frame for comparisons: its lock's, until its first pilot has ended; from then the mean energy of the
pilots it has carried so far, its closing pilot among them (R168). -/
def powerNow (s : State) (p : Port) (x : Exch) (c : Cand) : Ratio :=
  match c.sync with
  | some e =>
    if x.iso ∨ s.ecyc < e + 128 * x.chip then c.power
    else
      let k := pilotsSoFar s p x c e
      if k = [] then c.power else meanPower s p k
  | none => c.power

/-- A frame's closing pilot has ended, or its header has ended it (R80, R174). -/
def frameOver (s : State) (p : Port) (x : Exch) (c : Cand) (e : Nat) : Bool :=
  match (chainOf s p x c e).1 with
  | .stamet hdr _ _ =>
    decide (e + 144 * x.chip ≤ s.ecyc) && (badHeader hdr || decide (e + 16 * x.chip * symbolsAfter hdr ≤ s.ecyc))
  | .iso _ _ => true

/-- The receiving frame is inside its capture window, which closes at the end of its pilot CAP_WIN or of its closing pilot.
With CAP_WIN = 0 it closes when the sync is declared, c + 24 after the sync instant: only then is the sync known (DESIGN
CHOICE, log entry 90). An ISO/IEC 18000-63 reply carries no pilot, so its window closes with its preamble (R169, R186; log
entry 23). -/
def inWindow (s : State) (p : Port) (x : Exch) (c : Cand) : Bool :=
  match c.sync with
  | none => true
  | some e =>
    let k := fld (s.inUse (aPort p 0x10)) 23 21
    !x.iso && decide (k ≠ 0 ∧ s.ecyc < e + 128 * k * x.chip) && !frameOver s p x c e

/-- `a` stands M above `b` (R168). -/
def standsAbove (s : State) (p : Port) (a b : Ratio) : Bool := (a.over b).atLeast (capMargin s p)

/-- A new candidate is held as standby if none is, or if it stands M above the one held (R168). -/
def offerStandby (s : State) (p : Port) (x : Exch) (y : Cand) : State :=
  match s.ports[p].standby with
  | none => s.updPort p (fun z => { z with standby := some y })
  | some z =>
    if standsAbove s p y.power (powerNow s p x z) then s.updPort p (fun w => { w with standby := some y }) else s

/-- A new candidate against the receiving frame: switchover, late, standby or ignored (R168, R169). -/
def judgeCand (s : State) (p : Port) (x : Exch) (c y : Cand) : State :=
  if standsAbove s p y.power (powerNow s p x c) then
    if inWindow s p x c then
      bump (s.updPort p (fun z => { z with recv := some y, standby := none, capt := true })) (aPort p 0x18)
    else offerStandby (bump s (aPort p 0x1B)) p x y
  else offerStandby s p x y

/-- Timings within one chip of each other, modulo the symbol period (R167, R186). -/
def sameTiming (x : Exch) (a b : Nat) : Bool :=
  let n := max 1 (symbolOf x)
  let d := (a + n - b % n) % n
  decide (d ≤ x.chip ∨ n ≤ d + x.chip)

/-- Of two locks of one E-cycle, whether the new one takes RECEIVING: by its power, TZ0 on a tie (R167). -/
def takesOver (c y : Cand) : Bool :=
  let a := y.power.num * c.power.den
  let b := c.power.num * y.power.den
  decide (b < a ∨ (a = b ∧ y.tz = false))

/-- A correlator locks: the first takes the chain, a lock of the same E-cycle by its power, one at the receiving frame's
timing is that frame, another is judged (R167, R168). -/
def takeLock (s : State) (p : Port) (x : Exch) (y : Cand) : State :=
  match s.ports[p].recv with
  | none => s.updPort p (fun z => { z with recv := some y })
  | some c =>
    if c.tz == y.tz then s
    else if c.lockAt = y.lockAt ∧ takesOver c y = true then
      let s := s.updPort p (fun z => { z with recv := some y })
      if sameTiming x y.timing c.timing then s else judgeCand s p x y c
    else if sameTiming x c.timing y.timing then s
    else judgeCand s p x c y

/-- The nominal link frequency in Hz, as a quotient (R275). -/
def nominalFreq (l : IsoLink) : Nat × Nat :=
  if l.dr643 then (245760000 * 64, 3 * trcalOf l) else (245760000 * 8, trcalOf l)

/-- A link frequency lies within ±25 % of the nominal BLF (R276). -/
def freqTaken (l : IsoLink) (f : Nat) : Bool :=
  let n := nominalFreq l
  decide (3 * n.1 ≤ 4 * f * n.2 ∧ 4 * f * n.2 ≤ 5 * n.1)

/-- The preamble's E-cycles for `k` symbols at a measured link frequency (R276, R277). -/
def symbolsAt (l : IsoLink) (f k : Nat) : Nat := k * symTpri l * 245760000 / max 1 f

/-- A port's samples up to this E-cycle: those it holds, and those of the AGC block in progress (R155). -/
def withRest (s : State) (p : Port) (l : List Cx) : State :=
  let b := keptBlock s p (s.ports[p].agcAt - 160) (frontEnd s p l).1
  if l = [] then s else s.updPort p (fun x => { x with buf := b ++ x.buf })

/-- The symbols of a lock: of a Stamet exchange the correlations of CP with the last PRE_MIN symbol periods; of an ISO/IEC
18000-63 exchange those given (R75, R165, R186). -/
def lockSymbols (s : State) (p : Port) (x : Exch) (v : LockMeas) : List Cx :=
  if x.iso then v.syms.map (fun z => atGain30 0 (gainOf s p) (gainCorrected s p (gainOf s p) z))
  else symbolsUpTo x.chip (withRest s p v.rest).ports[p].buf (codeChips (codeCp x.cs)) s.ecyc (preMin s p)

/-- A correlator's symbols make a lock: in a Stamet exchange the last PRE_MIN of them exceed PRE_THR at steady phase; in an
ISO/IEC 18000-63 exchange the preamble's symbols exceed PRE_THR and the link frequency is one the receiver accepts (R165,
R186, R276, R277; log entry 65). The symbols it counts, if it is one. -/
def lockOf (s : State) (p : Port) (x : Exch) (v : LockMeas) : Option (List Cx) :=
  let w := lockSymbols s p x v
  let loud := w.all (fun z => (overFloor s p z.energy).exceeds (preThr s p))
  if x.iso then
    if w != [] && loud && freqTaken x.link v.freq && decide (v.left < preSymbols x.link) then some w else none
  else if loud && steady w then some w else none

/-- The candidate of a lock in this E-cycle, where its last symbol ends (R165, R166, R277). -/
def candOf (s : State) (p : Port) (x : Exch) (tz : Bool) (v : LockMeas) (w : List Cx) : Cand :=
  { tz := tz, lockAt := s.ecyc, power := meanPower s p w, timing := s.ecyc, coarse := coarseOf w,
    due := s.ecyc + (if x.iso then symbolsAt x.link v.freq (v.left + 2) else allowanceOf s p x), freq := v.freq,
    sync := none, syncTb := 0, replayAt := 0 }

/-- PREAMBLE_LOCK: in the hunt phase of an exchange that expects a frame; the gain freezes at the port's first lock
(R160, R165, R167, R168). -/
def execPreambleLock (p : Port) (tz : Bool) (v : LockMeas) (s : State) : Host.Outcome State Fault Refusal :=
  .next (match portExch s p with
    | some x =>
      if x.phase = .hunt ∧ x.expects ≠ .bit ∧ s.ports[p].ovld = false ∧ portPresent s p ∧ s.ecyc ≤ x.deadline then
        match lockOf s p x v with
        | some w => takeLock (freezeGain s p) p x (candOf s p x tz v w)
        | none => s
      else s
    | none => s)

/-- The last 16 polarities of a frame up to `e` match the sync word (R166, R187). -/
def syncMatches (s : State) (p : Port) (x : Exch) (c : Cand) (e : Nat) : Bool :=
  let w := s.inUse (aPort p 0x10)
  let pol := polarities x.chip s.ports[p].buf (codeChips (codeCp x.cs)) c.lockAt c.coarse e
  decide (popCount 16 (pol.toNat ^^^ fld w 15 0) ≤ fld w 17 16)

/-- A frame's sync, `e` E-cycles of the exchange, is taken: the chain replays from its lock (R57, R173). -/
def synced (s : State) (c : Cand) (e : Nat) : Cand := { c with sync := some e, syncTb := stampAt e, replayAt := s.ecyc }

/-- A reply whose preamble ends at `e` began inside T1 (R279). -/
def inT1 (x : Exch) (c : Cand) (e : Nat) : Bool :=
  let n := symbolsAt x.link c.freq (preSymbols x.link)
  decide (x.endAt + x.t1Min + n ≤ e ∧ e ≤ x.endAt + x.t1Max + n)

/-- A candidate of correlator `tz` completes its sync at `e`: by the deadline and inside its allowance, its polarities on
the sync word, or, in an ISO/IEC 18000-63 exchange, its preamble's end with a beginning inside T1 (R86, R166, R277, R279). -/
def syncTaken (s : State) (p : Port) (x : Exch) (tz : Bool) (e : Nat) (c : Cand) : Bool :=
  c.tz == tz && c.sync.isNone && decide (e ≤ x.deadline ∧ e ≤ c.due) && (if x.iso then inT1 x c e else syncMatches s p x c e)

/-- SYNC_DECLARATION, c + 24 after the last sync chip: the receiving frame syncs, or a standby does and takes the chain
from one that has not (R166, R170, R185). -/
def execSyncDeclaration (p : Port) (tz : Bool) (s : State) : Host.Outcome State Fault Refusal :=
  .next (match portExch s p with
    | some x =>
      let e := s.ecyc - (x.chip + 24)
      let okFor := syncTaken s p x tz e
      let y := s.ports[p]
      if !listening x then s
      else
      match y.recv, y.standby with
      | some c, sb =>
        if okFor c then s.updPort p (fun z => { z with recv := some (synced s c e) })
        else
          (match sb with
           | some b =>
             if okFor b then
               if c.sync.isNone then s.updPort p (fun z => { z with recv := some (synced s b e), standby := some c })
               else s.updPort p (fun z => { z with standby := some (synced s b e) })
             else s
           | none => s)
      | none, _ => s
    | none => s)

/-- The standby of a port after its receiving frame was abandoned or judged: promoted if its lock lies within the capture
buffer and it has synced or still may; else dropped (R172, R173). -/
def promote (s : State) (p : Port) (x : Exch) : State :=
  match s.ports[p].standby with
  | none => s.updPort p (fun z => { z with recv := none })
  | some b =>
    let fit := decide (s.ecyc ≤ b.lockAt + 48 * symbolOf x) && (b.sync.isSome || decide (s.ecyc ≤ b.due))
    s.updPort p (fun z => { z with
      recv := if fit then some { b with replayAt := if b.sync.isSome then s.ecyc else 0 } else none, standby := none })

/-- A false start counts (R171, R183). -/
def countFalse (s : State) (p : Port) : State :=
  bump (s.updPort p (fun z => { z with falseSeen := true })) (aPort p 0x17)

/-- FALSE_START: a lock without sync past its allowance, delivered c + 24 later, in the exchange it fell in (R171, R185, R277,
R278). -/
def execFalseStart (p : Port) (tz : Bool) (s : State) : Host.Outcome State Fault Refusal :=
  .next (match portExch s p with
    | some x =>
      let late (c : Cand) : Bool := c.tz == tz && c.sync.isNone && heard x && decide (c.due + x.chip + 24 ≤ s.ecyc)
      let y := s.ports[p]
      if y.recv.any late then checkFinish (promote (countFalse s p) p x) (quadOf p)
      else if y.standby.any late then
        checkFinish ((countFalse s p).updPort p (fun z => { z with standby := none })) (quadOf p)
      else s
    | none => s)

/-- When the chain has processed a chip of a frame that lies at E-cycle `e` (R173). -/
def processedAt (c : Cand) (e : Nat) : Nat := max e (c.replayAt + (e - c.lockAt + 3) / 4)

/-- Q of a frame, from its chain's first two pilots and the step tracked before the second (R171). -/
def qualityOf (s : State) (p : Port) (x : Exch) (c : Cand) (e : Nat) : Ratio :=
  match (chainOf s p x c e).2.pilots.reverse with
  | a :: b :: _ => pilotQuality s.ports[p].noise b.2.2 a.2.1 b.2.1
  | _ => { num := 0, den := 1 }

/-- PQ_THR in dB (R187). -/
def pqThr (s : State) (p : Port) : Int := (fld (s.inUse (aPort p 0x11)) 15 12 : Int)

/-- PILOT_QUALITY_ABORT: 2c + 40 after the end of the second pilot, below PQ_THR (R171, R172, R185). -/
def execPilotQualityAbort (p : Port) (s : State) : Host.Outcome State Fault Refusal :=
  .next (match portExch s p, s.ports[p].recv with
    | some x, some c =>
      match c.sync with
      | some e =>
        if !x.iso && listening x && decide (processedAt c (e + 256 * x.chip) + 2 * x.chip + 40 ≤ s.ecyc) &&
            !(qualityOf s p x c e).atLeast (pqThr s p) then
          checkFinish (promote (countFalse s p) p x) (quadOf p)
        else s
      | none => s
    | _, _ => s)

/-- An ISO/IEC 18000-63 reply's last 16 bits are the CRC-16 of those before (R280, R283; log entry 22). -/
def isoCrcOk (bs : List Bool) : Bool := decide (16 ≤ bs.length) && isoCrc (bs.take (bs.length - 16)) == bs

/-- The trackers over an ISO/IEC 18000-63 preamble's symbols, from the coarse estimate (R176, R177, R186). -/
def isoLoop (s : State) (p : Port) (x : Exch) (c : Cand) (ks : List Known) : Loop :=
  let lim := maxStep (symbolOf x)
  let l := Loop.start lim c.coarse ((ks.head?.map (·.z)).getD Cx.zero)
  ks.foldl (fun l k => l.update (trkBw s p) lim k.z k.early k.late) { l with ph := l.ph - l.f }

/-- What a port's chain makes of a frame: its content, the trackers at its end, and its pilots (an ISO/IEC 18000-63 reply's
preamble symbols) with their ends and their places in symbols. -/
structure Decoded where
  rx : RxContent
  loop : Loop
  ends : List Nat
  points : List (Int × Cx)
  deriving DecidableEq, Repr

/-- The frame with its sync at `e`: a Stamet frame equalised, despread and parsed from the port's samples, an ISO/IEC 18000-63
reply judged by its coding and, where it carries one, its CRC-16 (R174, R176 to R180, R278, R283). -/
def decoded (s : State) (p : Port) (x : Exch) (c : Cand) (e : Nat) : RxInput → Decoded
  | .stamet =>
    let r := chainOf s p x c e
    { rx := r.1, loop := r.2.loop, ends := r.2.pilotEnds (chainCfg s p x c.lockAt), points := r.2.pilotPoints }
  | .iso ks coded bits =>
    { rx := .iso (coded && (!x.hasCrc || isoCrcOk bits)) bits, loop := isoLoop s p x c ks, ends := [],
      points := List.zipWith (fun (i : Nat) k => ((i : Int), k.z)) (List.range ks.length) ks }

/-- Whether a verdict is valid: CRC-24, header and an allowed KIND, or the ISO/IEC 18000-63 verdict (R174, R278). -/
def verdictOk (x : Exch) : RxContent → Bool
  | .stamet hdr ws crc =>
    !x.iso && !badHeader hdr && ws.length == wordsOf hdr && crc24Ok hdr ws crc && x.kinds.contains (kindOf hdr)
  | .iso ok _ => x.iso && ok

/-- The last chip of a frame at the ADC input: of its closing pilot, or of the header that ends it, or, for an ISO/IEC
18000-63 reply, as its verdict's latency gives it (R80, R174, R278). -/
def replyEnd (s : State) (x : Exch) (sync : Nat) : RxContent → Nat
  | .stamet hdr _ _ => if badHeader hdr then sync + 144 * x.chip else sync + 16 * x.chip * symbolsAfter hdr
  | .iso _ _ => s.ecyc - (2 * x.chip + 40)

/-- Symbols a second, as a quotient: of the chip rate, or of an ISO/IEC 18000-63 reply's measured link frequency (R156, R276,
R277). -/
def symbolRate (x : Exch) (freq : Nat) : Nat × Nat := if x.iso then (freq, symTpri x.link) else (245760000, 16 * x.chip)

/-- The carrier offset in Hz, the chip-rate error in 0.1 ppm and the pilot SNR of a frame (R176, R177, R181, R187). -/
def trackWord (x : Exch) (c : Cand) (d : Decoded) : Word :=
  put 0 16 (toBits 16 (rdiv (milliHertz (symbolRate x c.freq) d.loop.f) 1000)) ||| put 16 16 (toBits 16 d.loop.r)
def snrByte (p : Port) (x : Exch) (c : Cand) (d : Decoded) : Nat :=
  byteOf (({ num := (tapMeas p (symbolRate x c.freq) d.loop.f d.points).snr, den := 1000 } : Ratio).inSteps 4)

/-- The verdict of a port on a frame. -/
def verdictOf (s : State) (p : Port) (x : Exch) (c : Cand) (e : Nat) (d : Decoded) : Verdict :=
  { port := p, at_ := s.ecyc, sync := e, ok := verdictOk x d.rx, rx := d.rx, pilots := d.ends, step := d.loop.f, freq := c.freq }

/-- What a verdict leaves at its port: flags and counters, the promotion of a standby; and in the exchange (R182, R183). -/
def takeVerdict (s : State) (p : Port) (x : Exch) (c : Cand) (e : Nat) (d : Decoded) : State :=
  let end_ := replyEnd s x e d.rx
  let v := verdictOf s p x c e d
  let s := if v.ok then s.updPort p (fun z => { z with valid := true })
    else bump (s.updPort p (fun z => { z with crcFail := true })) (aPort p 0x19)
  let s := updExch s (quadOf p) (fun y => if takesPart s p then { y with
    verdicts := y.verdicts ++ [v], refAt := if y.refAt = y.deadline then end_ else max y.refAt end_ } else y)
  checkFinish (promote s p x) (quadOf p)

/-- The readings a frame leaves at its port at its end (R176, R177, R187). -/
def noteTrack (s : State) (p : Port) (w : Word) (snr : Nat) : State :=
  (s.setRegFld (aPort p 0x15) 15 8 snr).setReg (aPort p 0x16) w

/-- PORT_CRC_VERDICT: 2c + 40 after the chain has processed the frame's last chip. A header that ends its frame does so with
the same latency from its own last chip (R173, R174, R185; DESIGN CHOICE, log entry 91). -/
def execPortCrcVerdict (p : Port) (rx : RxInput) (s : State) : Host.Outcome State Fault Refusal :=
  .next (match portExch s p, s.ports[p].recv with
    | some x, some c =>
      match c.sync with
      | some e =>
        let d := decoded s p x c e rx
        if listening x && decide (processedAt c (replyEnd s x e d.rx) + 2 * x.chip + 40 ≤ s.ecyc) then
          noteTrack (takeVerdict s p x c e d) p (trackWord x c d) (snrByte p x c d)
        else s
      | none => s
    | _, _ => s)

/-- The node outcome of two energies (R163). -/
def classify (thr dr : Int) (e0 e1 : Ratio) : BitOut :=
  let up := decide (e0.num * e1.den < e1.num * e0.den)
  let hi := if up then e1 else e0
  let lo := if up then e0 else e1
  if !hi.atLeast thr then .none
  else if !lo.atLeast thr || !(lo.over hi).atLeast (-dr) then .one up
  else .both

/-- BIT_THR and COLL_DR in use, in dB (R189). -/
def bitThr (s : State) (q : Quad) : Int := (fld (s.inUse (aRxcmb (lead s q))) 3 0 : Int)
def collDr (s : State) (q : Quad) : Int := 2 * (min 12 (fld (s.inUse (aRxcmb (lead s q))) 7 4) : Int)

/-- A reader takes correlation energy only inside the reply window and its 34-chip extension (R83, R86). -/
def inBitWindow (x : Exch) (t : Nat) : Bool := decide (4669 ≤ t ∧ x.endAt + t + 32 * x.chip ≤ x.deadline)

/-- E_c at an offset `t` from the frame end: the mean over ports of the energy of a 32-chip correlation over its floor, the C1
correlation compensated (R158, R161, R162). `f` gives an energy in 1/16. -/
def meanAt (s : State) (ps : List Port) (x : Exch) (f : Cx → Cx → Nat) (t : Nat) : Ratio :=
  let one (p : Port) : Ratio :=
    let z (b : Bool) : Cx := correlate x.chip s.ports[p].buf (bitReplyChips b) (x.endAt + t + 32 * x.chip)
    { num := f (z false) (z true) * s.ports[p].noise.den, den := 32 * s.ports[p].noise.num }
  let r := (ps.map one).foldl Ratio.plus { num := 0, den := 1 }
  { r with den := r.den * ps.length }

/-- The offsets of the classifier: every quarter chip of the reply window and its extension (R86, R161). -/
def bitOffsets (x : Exch) : List Nat :=
  ((List.range (x.deadline - x.endAt)).map (fun i => 4669 + max 1 (x.chip / 4) * i)).takeWhile (inBitWindow x)

/-- The greatest of E_c over the offsets, and its offset; the first of equals (R161). -/
def peakOf (s : State) (ps : List Port) (x : Exch) (f : Cx → Cx → Nat) : Ratio × Nat :=
  (bitOffsets x).foldl (fun a t =>
    let r := meanAt s ps x f t
    if a.1.num * r.den < r.num * a.1.den then (r, t) else a) ({ num := 0, den := 1 }, 0)

/-- BIT_REPLY_OUTCOME: c + 24 after the no-reply deadline. T2 counts from the last chip of the reply found (R84, R161 to
R164, R374; log entry 69). -/
def execBitReplyOutcome (q : Quad) (s : State) : Host.Outcome State Fault Refusal :=
  .next (match exchOf s q with
    | some x =>
      if x.expects = .bit ∧ x.phase = .finish ∧ x.bit = none ∧ x.deadline + x.chip + 24 ≤ s.ecyc then
        let ps := (groupPorts s q).filter (takesPart s)
        let a := peakOf s ps x energyC0
        let b := peakOf s ps x energyC1
        let o := if ps.isEmpty then .none else classify (bitThr s q) (collDr s q) a.1 b.1
        let last := match o with
          | .none => 0
          | .one c => if c then b.2 else a.2
          | .both => max a.2 b.2
        endFinish (updExch s q (fun y => { y with
          bit := some o, e0 := byteOf (a.1.inSteps 1), e1 := byteOf (b.1.inSteps 1),
          outAt := some (y.deadline + y.chip + 24),
          refAt := if o = .none then y.deadline else y.endAt + last + 32 * y.chip })) q
      else s
    | none => s)

/-- A port's outcome for the exchange (R183, R239). -/
def portOutcome (s : State) (p : Port) : Nat :=
  let y := s.ports[p]
  (if y.valid then 1 else if y.crcFail then 2 else if y.falseSeen && !y.ovld then 3 else 0) + 4 * b2n y.capt + 8 * b2n y.clip

/-- The status of an attempt over a group's ports, whatever their RX_EN (R184). Of a port that overloaded, the result of a
verdict it delivered before counts and its CAPT does not (R239; DESIGN CHOICE, log entry 68). -/
def attemptStatus (s : State) (q : Quad) (x : Exch) : BitVec 8 :=
  let ps := (groupPorts s q).filter (portPresent s)
  if !x.valid.isEmpty || (match x.bit with | some b => b != .none | none => false) then stOk
  else if ps.any (fun p => portOutcome s p % 4 == 2) then stAirCrc
  else if ps.any (fun p => s.ports[p].capt && !s.ports[p].ovld) then stCaptured
  else if ps.any (fun p => portOutcome s p % 4 == 3) then stFalseStart
  else stNoReply

/-- The first E-cycle in which a start mark may follow an exchange with outcome instant `o`: T2 after its reference, T4
after an ISO/IEC 18000-63 frame without a reply (R84, R85, R279, R374; log entry 29). -/
def clearOf (x : Exch) (o : Nat) : Nat :=
  if !x.iso then x.refAt + 4915
  else if x.expects ≠ .none ∧ x.refAt ≠ x.deadline then max (x.refAt + isoT2 x.link) (o + 8)
  else max (x.endAt + isoT4 x.link) (o + 8)

/-- An exchange ends: port outcomes are reported and the gains are released (R160, R183). -/
def closeExchange (s : State) (q : Quad) (x : Exch) (o : Nat) : State :=
  let s := if x.expects = .none then s
    else each (groupPorts s q) (fun p t => t.setRegFld (aPort p 0x14) 11 8 (portOutcome t p)) s
  let s := each (groupPorts s q) (fun p t => t.updPort p (fun z => { z with recv := none, standby := none })) s
  (releaseGains s q).updQuad (lead s q) (fun y => { y with exch := none, airAfter := clearOf x o })

end Sys2Proof.Machine
end

