-- ==== Sys2Proof/Machine/Walk.lean ====
section
/-! DEFINITION. The air sequencer of a group, Stamet side: what follows the outcome of an exchange in a walk (R106 to R109,
R122 to R127) and in the single commands (R111, R112, R390 to R393). -/

namespace Sys2Proof.Machine

/-- The group's job replaced. -/
def setJob (s : State) (q : Quad) (j : Job) : State := s.updQuad (lead s q) (fun x => { x with job := some j })

/-- The next frame of a job may begin at `t`, counted from the reference `ref`; where DWELL expires by then, no new start
mark is sent and the round ends with the exchange just completed (R121, R374). -/
def planNext (s : State) (q : Quad) (j : Job) (t ref : Nat) : State :=
  let hit := j.inRound && (j.dwellHit || (match j.dwellAt with | some d => decide (d ≤ t) | none => false))
  s.updQuad (lead s q) (fun x => { x with
    job := some { j with dwellHit := hit },
    next := some { notBefore := if hit then s.ecyc else t, past := hit, ref := ref } })

/-- The round of a job is over: nothing is left to walk or to query. Where DWELL expired during the exchange just completed
the round still counts as ended by the empty stack, not by DWELL (R121, R285; DESIGN CHOICE, log entry 70). -/
def planOver (s : State) (q : Quad) (j : Job) (ref : Nat) : State :=
  s.updQuad (lead s q) (fun x => { x with
    job := some { j with dwellHit := false }, next := some { notBefore := s.ecyc, past := true, ref := ref } })

/-- The next Stamet frame: T2 after the reference of the exchange (R84, R374). -/
def nextSt (s : State) (q : Quad) (j : Job) (x : Exch) (step : AirStep) : State :=
  planNext s q { j with step := step } (x.refAt + 4915) x.refAt

/-- The name in the payload of a NAME frame: its first six words, a missing word 0 (R104). -/
def wordsName (ws : List (BitVec 16)) : Name :=
  BitVec.ofNat 96 (((ws ++ List.replicate 6 0).take 6).foldl (fun (a : Nat) (w : BitVec 16) => a * 65536 + w.toNat) 0)

/-- The name of an EPC reply: its bits after the PC word and the XPC words and before the CRC-16, with zeros up to 96
(R286; log entry 22). -/
def epcName (bs : List Bool) : Name :=
  let b := (bs.take (bs.length - 16)).drop 16
  let b := if bs.getD 6 false then b.drop (if b.headD false then 32 else 16) else b
  BitVec.ofNat 96 (natOfBits ((b ++ List.replicate 96 false).take 96))

/-- The name a valid frame carries: a NAME frame's, or an EPC reply's. -/
def rxName : RxContent → Option Name
  | .stamet hdr ws _ => if kindOf hdr = 0 then some (wordsName ws) else none
  | .iso _ bits => some (epcName bits)

/-- The valid NAME frames of an exchange. -/
def namesOf (x : Exch) : List (VFrame × Name) := x.valid.filterMap (fun f => (rxName f.rx).map (fun n => (f, n)))

/-- A sighting of a job's name still waits for its directory step. -/
def sightWaits (s : State) (j : Job) (n : Name) : Bool :=
  let mine (x : Sight) : Bool := x.job == j.stamp && x.name == n && x.round == some j.roundNo
  s.dir.fifo.any mine || (match s.dir.upd with | some u => mine u.s | none => false)

/-- The tag in hand, with its handle where its update is already done (R147). -/
def tagRef (s : State) (j : Job) (f : VFrame) (n : Name) : TagRef :=
  { name := n, quad := f.best.val / 4,
    handle := if sightWaits s j n then none else some ((findName s.variant s.dir.entries n).getD noEntry) }

/-- A subtree is finished: the next prefix of the stack, or the end of the round (R122, R123). -/
def subtreeDone (s : State) (q : Quad) (j : Job) (x : Exch) : State :=
  match j.walk.stack with
  | [] => planOver s q j x.refAt
  | (p, f) :: rest =>
    nextSt s q { j with walk := { j.walk with pfx := p, mode := .popped, floor := f, stack := rest, second := none } } x
      (.node true)

/-- A ticket is done with: the ticket that waits for it, or the next subtree (R106). -/
def ticketDone (s : State) (q : Quad) (j : Job) (x : Exch) : State :=
  match j.walk.second with
  | some t => nextSt s q { j with walk := { j.walk with second := none, silent := 0, crcPrev := false } } x (.sel32 t)
  | none => subtreeDone s q j x

/-- A tag is singulated: it counts, and its ACTION, its HALT or the walk follows (R127). -/
def tagFound (s : State) (q : Quad) (j : Job) (x : Exch) (f : VFrame) (n : Name) : State :=
  let j := { j with tagsRound := j.tagsRound + 1, tag := some (tagRef s j f n) }
  let s := updSum s j.stamp (fun m => { m with tags := m.tags + 1 })
  if j.st.action ≠ 0 then nextSt s q j x .action
  else if j.st.halt then nextSt s q j x (.halt 0)
  else ticketDone s q j x

/-- A twin: redraw under its first 24 bits, at the third time the prefix is abandoned for the round. What the stack held
below that prefix is covered by the redraw walk, or abandoned with it (R108, R109, R123; log entry 28). -/
def twinMet (s : State) (q : Quad) (j : Job) (x : Exch) (ticket : List Bool) : State :=
  let p := ticket.take 24
  let n := (match j.walk.twins.find? (fun e => e.1 == p) with | some e => e.2 | none => 0) + 1
  let w := { j.walk with
    twins := (p, n) :: j.walk.twins.filter (fun e => e.1 != p), second := none,
    stack := j.walk.stack.filter (fun e => decide (e.1.length ≤ 24)) }
  if n < 3 then nextSt s q { j with walk := w } x (.redraw p)
  else
    let s := updSum s j.stamp (fun m => { m with twins := m.twins + 1 })
    subtreeDone s q { j with walk := { w with aband := true } } x

/-- A silent branch or ticket is abandoned: DROPOUT counts (R124, R125). -/
def dropout (s : State) (j : Job) : State := updSum s j.stamp (fun m => { m with dropouts := m.dropouts + 1 })

/-- E of R126. -/
def popEstimate (s : State) (q : Quad) (j : Job) : Nat :=
  max 1 (if j.st.expect = 0 then s.quads[lead s q].prevTags else j.st.expect)

/-- An early SELECT follows a one-code node (R126, R391). -/
def earlyNow (s : State) (q : Quad) (j : Job) : Bool :=
  j.opcode == 0x40 && decide (j.walk.floor ≤ j.walk.pfx.length ∧ 4 * popEstimate s q j ≤ 2 ^ (j.walk.pfx.length + 1))

/-- The walk extends its prefix by a bit (R122). -/
def extend (s : State) (q : Quad) (j : Job) (x : Exch) (b : Bool) : State :=
  nextSt s q { j with walk := { j.walk with pfx := j.walk.pfx ++ [b], mode := .step } } x (.node false)

/-- A node's outcome (R106, R122 to R124, R126). -/
def nodeOutcome (s : State) (q : Quad) (j : Job) (x : Exch) (b : BitOut) : State :=
  let w := j.walk
  let d := w.pfx.length
  match b with
  | .none =>
    (match w.mode with
     | .root => planOver s q j x.refAt
     | .step => nextSt s q { j with walk := { w with mode := .resent } } x (.node true)
     | .resent => subtreeDone (dropout s j) q j x
     | .popped => subtreeDone s q j x)
  | .both =>
    if d = 31 then
      nextSt s q { j with walk := { w with second := some (w.pfx ++ [true]), silent := 0, crcPrev := false } } x
        (.sel32 (w.pfx ++ [false]))
    else extend s q { j with walk := { w with stack := (w.pfx ++ [true], w.floor) :: w.stack } } x false
  | .one c =>
    if d = 31 then
      nextSt s q { j with walk := { w with second := none, silent := 0, crcPrev := false } } x (.sel32 (w.pfx ++ [c]))
    else if earlyNow s q j then nextSt s q j x (.early (w.pfx ++ [c]))
    else extend s q j x c

/-- An early SELECT's outcome: one valid NAME singulates; else the walk goes on below, with no further early SELECT until
the depth has grown by 4 (R107, R126). -/
def earlyOutcome (s : State) (q : Quad) (j : Job) (x : Exch) (pfx : List Bool) : State :=
  match namesOf x with
  | [(f, n)] => tagFound s q { j with walk := { j.walk with second := none } } x f n
  | _ => nextSt s q { j with walk := { j.walk with pfx := pfx, mode := .step, floor := pfx.length + 3 } } x (.node true)

/-- A sync followed by a failed CRC, for the rules of twins and resends (R108, R184). -/
def syncFailed (st : BitVec 8) : Bool := st == stAirCrc || st == stCaptured

/-- The handle a name's update gives (R391; log entry 26). -/
def handleFor (s : State) (n : Name) : Option Nat :=
  let ns := (match s.dir.upd with | some u => [u.s.name] | none => []) ++ s.dir.fifo.map (·.name)
  if ns.contains n then predictHandle s.variant n s.dir.entries s.dir.evict ns else findName s.variant s.dir.entries n

/-- ST_SELECT has decoded its name: the tag stays Active as the quad's selection (R390, R391). -/
def selectDone (s : State) (q : Quad) (j : Job) (n : Name) (ticket : List Bool) : State :=
  let t := BitVec.ofNat 32 (natOfBits ticket)
  let h := match handleFor s n with | some h => put 0 18 h | none => put 31 1 1 ||| put 0 18 noEntry
  let s := finishAir s q { j with tagsRound := j.tagsRound + 1 } stOk [t, put 0 16 j.roundNo.toNat, h] 0
  s.updQuad (lead s q) (fun x => { x with sel := some { name := n, ticket := t, rid := j.rid, st := j.st } })

/-- The outcome of a SELECT with MLEN = 32 in a walk (R106, R108, R125, R391). -/
def sel32Outcome (s : State) (q : Quad) (j : Job) (x : Exch) (st : BitVec 8) (ticket : List Bool) : State :=
  let ns := namesOf x
  if j.opcode = 0x41 && ns.any (fun e => some e.2 == j.want) then selectDone s q j (j.want.getD 0) ticket
  else
    match ns with
    | [(f, n)] => tagFound s q j x f n
    | _ :: _ :: _ => twinMet s q j x ticket
    | [] =>
      if syncFailed st then
        if j.walk.crcPrev then twinMet s q j x ticket
        else nextSt s q { j with walk := { j.walk with crcPrev := true } } x (.sel32 ticket)
      else if 1 ≤ j.walk.silent then ticketDone (dropout s j) q j x
      else nextSt s q { j with walk := { j.walk with silent := 1, crcPrev := false } } x (.sel32 ticket)

/-- What a memory or sensor exchange gave: status, the tag's error code, and the words of its frame, of the valid frame with
the earliest sync where there are two; the first word of an ERROR frame is its code, 0 where it has none (R103, R115; DESIGN
CHOICE, log entry 71). -/
def frameResult (x : Exch) (st : BitVec 8) : BitVec 8 × BitVec 16 × List (BitVec 16) :=
  match x.valid.head? with
  | some f =>
    (match f.rx with
     | .stamet hdr ws _ => if kindOf hdr = 4 then (stBadParam, ws.headD 0, []) else (stOk, 0, ws)
     | .iso _ _ => (st, 0, []))
  | none => (st, 0, [])

/-- The data words of a READ or SENSE, cut or filled with 0 to the count asked for, and to two for SENSE (R102, R392; DESIGN
CHOICE, log entry 53). -/
def dataWords (p : StPrm) (ws : List (BitVec 16)) : List Word :=
  let n := if p.action = 2 then 2 else p.cnt
  packHalves 8 ((ws ++ List.replicate n 0).take n)

/-- An ACTION exchange leaves its action record (R147). -/
def leaveAct (s : State) (q : Quad) (j : Job) (o : Nat) (st : BitVec 8) (code : BitVec 16) (data : List Word) : State :=
  match j.tag with
  | none => s
  | some g =>
    let s := if st = stOk then s else updSum s j.stamp (fun m => { m with failedActions := m.failedActions + 1 })
    { s with dir := { s.dir with acts := s.dir.acts ++
      [{ job := j.stamp, hdr := j.hdr, host := j.host, group := lead s q, iso := j.iso, sense := !j.iso && j.st.action == 2,
         status := st, code := code, name := g.name, round := j.roundNo, data := if st = stOk then data else [],
         readyAt := max (o + 8) s.ecyc + 1, handle := g.handle, quad := g.quad }] } }

/-- The outcome of a round's ACTION (R127, R147). -/
def actionOutcome (s : State) (q : Quad) (j : Job) (x : Exch) (o : Nat) (st : BitVec 8) : State :=
  let r := frameResult x st
  let s := leaveAct s q j o r.1 r.2.1 (dataWords j.st r.2.2)
  if j.st.halt then nextSt s q j x (.halt 0) else ticketDone s q j x

/-- The outcome of a HALT, resent once if its bit reply is missing (R127, R392). -/
def haltOutcome (s : State) (q : Quad) (j : Job) (x : Exch) (st : BitVec 8) (n : Nat) : State :=
  if n = 0 && st != stOk then nextSt s q j x (.halt 1)
  else if j.opcode = 0x44 then finishAir s q j st [] 0
  else ticketDone s q j x

/-- The exchange that follows a reselection, by the command (R392). -/
def afterReselect (j : Job) : AirStep :=
  if j.opcode = 0x43 then .prepare 1 else if j.opcode = 0x44 then .halt 0 else .one

/-- The outcome of a reselection. ST_HALT clears the selection from here on, and only a reselection without a valid NAME on
both sends keeps it (R390; log entry 95). -/
def reselectOutcome (s : State) (q : Quad) (j : Job) (x : Exch) (st : BitVec 8) (n : Nat) : State :=
  let ns := namesOf x
  if ns.any (fun e => some e.2 == j.want) then nextSt (if j.opcode = 0x44 then dropSel s q else s) q j x (afterReselect j)
  else if !ns.isEmpty then finishAir (dropSel s q) q j stCollision (failBody j) 0
  else if n = 0 then nextSt s q j x (.reselect 1)
  else finishAir s q j st (failBody j) 0

/-- The outcome of ST_READ's and ST_SENSE's own exchange (R392). -/
def oneOutcome (s : State) (q : Quad) (j : Job) (x : Exch) (st : BitVec 8) : State :=
  let r := frameResult x st
  finishAir s q j r.1 (if r.1 = stOk then dataWords j.st r.2.2 else []) r.2.1

/-- The status of a PREPARE allowance spent: AIR_COLLISION where the last send's only valid frame was an ACK that did not
echo, else the attempt's (R112, R184). -/
def prepareSpent (x : Exch) (st : BitVec 8) : BitVec 8 :=
  match x.valid with
  | [f] => (match f.rx with
    | .stamet hdr _ _ => if kindOf hdr = 2 then stCollision else st
    | .iso _ _ => st)
  | _ => st

/-- The outcome of the n-th PREPARE (R111, R112). -/
def prepareOutcome (s : State) (q : Quad) (j : Job) (x : Exch) (st : BitVec 8) (n : Nat) : State :=
  match writeReply j x with
  | some (.inl code) => finishAir s q j stBadParam (failBody j) code
  | some (.inr _) => nextSt s q { j with writeStep := 2 } x (.commit 1)
  | none =>
    if n < 3 then nextSt s q j x (.prepare (n + 1)) else finishAir s q j (prepareSpent x st) (failBody j) 0

/-- The outcome of the n-th COMMIT (R111, R112, R114). -/
def commitOutcome (s : State) (q : Quad) (j : Job) (x : Exch) (n : Nat) : State :=
  match writeReply j x with
  | some (.inl code) => finishAir s q { j with writeStep := 2 } stBadParam (failBody j) code
  | some (.inr ws) => finishAir s q { j with writeStep := 4 } stOk [put 0 16 (ws.getD 1 0).toNat] 0
  | none =>
    if n < 2 then nextSt s q j x (.commit (n + 1)) else finishAir s q j stIndeterminate (failBody j) 0

/-- The status and the tag's code of a raw exchange: of an ERROR frame BAD_PARAM with its code (R103, R115, R393). -/
def rawResult (x : Exch) (st : BitVec 8) : BitVec 8 × BitVec 16 :=
  let r := frameResult x st
  if x.expects = .none then (stOk, 0) else if r.1 = stBadParam then (stBadParam, r.2.1) else (st, 0)

/-- The port outcomes of an exchange, 4 bits a port (R183, R393). -/
def outcomeWords (s : State) (q : Quad) : List Word :=
  let n (p : Port) : Nat := if (groupPorts s q).contains p then portOutcome s p else 0
  [0, 8].map (fun b => BitVec.ofNat 32 ((List.range 8).map (fun i => n ⟨(b + i) % 16, by omega⟩ * 16 ^ i)).sum)

/-- CLASS, E0 and E1 of a raw exchange (R393). -/
def classWord (x : Exch) : Word :=
  put 0 2 (match x.bit with | some (.one b) => if b then 2 else 1 | some .both => 3 | _ => 0) |||
    put 8 8 x.e0 ||| put 16 8 x.e1

/-- STAMP of a raw exchange's valid frame (R57, R393). -/
def stampWords (f : Option VFrame) : List Word :=
  match f with
  | some f => let t := (stampAt f.sync).toNat; [BitVec.ofNat 32 t, put 0 16 (t / 2 ^ 32)]
  | none => [0, 0]

/-- The body of ST_RAW (R393). -/
def rawBody (outs : List Word) (x : Exch) : List Word :=
  classWord x :: (outs ++ stampWords x.valid.head? ++
    (match x.valid.head? with
     | some f => (match f.rx with | .stamet hdr ws _ => put 0 8 hdr.toNat :: packHalves 8 ws | .iso _ _ => [0])
     | none => [0]))

/-- What follows the outcome of a Stamet exchange: `o` is its O, `st` its status, `outs` its port outcomes. -/
def stOutcome (s : State) (q : Quad) (j : Job) (x : Exch) (o : Nat) (st : BitVec 8) (outs : List Word) : State :=
  match j.step with
  | .redraw p => nextSt s q { j with walk := { j.walk with pfx := p, mode := .popped, second := none } } x (.node true)
  | .node _ => nodeOutcome s q j x (x.bit.getD .none)
  | .early p => earlyOutcome s q j x p
  | .sel32 t => sel32Outcome s q j x st t
  | .action => actionOutcome s q j x o st
  | .halt n => haltOutcome s q j x st n
  | .reselect n => reselectOutcome s q j x st n
  | .one => oneOutcome s q j x st
  | .prepare n => prepareOutcome s q j x st n
  | .commit n => commitOutcome s q j x n
  | .raw => let r := rawResult x st; finishAir s q j r.1 (rawBody outs x) r.2
  | _ => nextSt s q j x (.node true)

end Sys2Proof.Machine
end

