-- ==== Sys2Proof/Machine/Slots.lean ====
section
/-! DEFINITION. The air sequencer of a group, ISO/IEC 18000-63 side: slots (R283 to R285), a round's ACTION (R282), and the
targeted commands (R288, R289, R396) and G_RAW (R397). -/

namespace Sys2Proof.Machine

/-- The next ISO/IEC 18000-63 frame of a job: T2 after a reply, T4 after a frame that drew none (R279, R374). -/
def nextIso (s : State) (q : Quad) (j : Job) (x : Exch) (o : Nat) (step : AirStep) : State :=
  planNext s q { j with step := step } (clearOf x o) x.refAt

/-- How a slot is classified (R283). -/
inductive SlotClass where
  | empty
  | single
  | collision
  deriving DecidableEq, Repr

/-- The bits of the first valid reply of an exchange. -/
def replyBits (x : Exch) : Option (List Bool) :=
  x.valid.head?.bind (fun f => match f.rx with | .iso _ bits => some bits | .stamet _ _ _ => none)

/-- Qfp after a slot, in 1/16 (R284). -/
def qfpAfter (c : SlotClass) (f : Nat) : Nat :=
  match c with
  | .collision => min 240 (f + 8)
  | .empty => f - 4
  | .single => f

/-- A slot of a round is over: it counts, Q follows, and the next slot or the end of the round comes (R283 to R285). -/
def slotDone (s : State) (q : Quad) (j : Job) (x : Exch) (o : Nat) (c : SlotClass) : State :=
  let s := updSum s j.stamp (fun m => match c with
    | .empty => { m with nodes := m.nodes + 1 }
    | .collision => { m with twins := m.twins + 1 }
    | .single => { m with early := m.early + 1 })
  let w := j.slots
  let w := { w with qfp := qfpAfter c w.qfp, done := w.done + 1, coll := w.coll || c == .collision }
  if 2 ^ w.q ≤ w.done ∧ w.coll = false then planOver s q { j with slots := w } x.refAt
  else
    let n := (w.qfp + 8) / 16
    if w.q < n then nextIso s q { j with slots := { w with q := w.q + 1, done := 0, coll := false } } x o (.gSlot (some true))
    else if n < w.q then nextIso s q { j with slots := { w with q := w.q - 1, done := 0, coll := false } } x o (.gSlot (some false))
    else nextIso s q { j with slots := w } x o (.gSlot none)

/-- A slot of a targeted command gave no tag: after a collision with Q = 0 the command runs once more with Q = 2 (R288). -/
def targetMiss (s : State) (q : Quad) (j : Job) (x : Exch) (o : Nat) (c : SlotClass) : State :=
  let w := j.slots
  if w.q = 0 then
    if c = .collision then nextIso s q { j with slots := { w with q := 2, done := 0 } } x o (.gSelect 0)
    else finishAir s q j stNoReply (failBody j) 0
  else if 4 ≤ w.done + 1 then finishAir s q j stNoReply (failBody j) 0
  else nextIso s q { j with slots := { w with done := w.done + 1 } } x o (.gSlot none)

/-- A slot is over without a tag to act on: of a round, or of a targeted command. -/
def slotOver (s : State) (q : Quad) (j : Job) (x : Exch) (o : Nat) (c : SlotClass) : State :=
  if j.opcode = 0x50 then slotDone s q j x o c else targetMiss s q j x o c

/-- The first reply of a slot (R283). -/
def slotOutcome (s : State) (q : Quad) (j : Job) (x : Exch) (o : Nat) (st : BitVec 8) : State :=
  match replyBits x with
  | some bs =>
    if bs.length = 16 then
      nextIso s q { j with rn16 := BitVec.ofNat 16 (natOfBits bs),
                           rnTaps := (x.valid.head?.map (·.taps)).getD [] } x o (.gAck 0)
    else slotOver s q j x o .collision
  | none => slotOver s q j x o (if st = stNoReply then .empty else .collision)

/-- The reply to the n-th ACK (R283). -/
def ackOutcome (s : State) (q : Quad) (j : Job) (x : Exch) (o : Nat) (st : BitVec 8) (n : Nat) : State :=
  match namesOf x with
  | (f, nm) :: _ =>
    let j := { j with tagsRound := j.tagsRound + 1, tag := some (tagRef s j f nm) }
    let s := updSum s j.stamp (fun m => { m with tags := m.tags + 1 })
    if j.opcode = 0x50 && !j.g.action then slotDone s q j x o .single else nextIso s q j x o (.gReqRn 0)
  | [] =>
    if syncFailed st then nextIso s q { j with nakColl := true } x o .gNak
    else if n = 0 then nextIso s q j x o (.gAck 1)
    else nextIso (dropout s j) q { j with nakColl := false } x o .gNak

/-- A tag's error reply to a step: the header bit is 1 (R289). A reply to Req_RN, to Access or to the first part of a Kill
carries no header, and is an error reply when it has an error reply's 41 bits (R280; log entry 22). -/
def errorReply (j : Job) (bs : List Bool) : Bool :=
  bs.headD false && (match j.step with
    | .gOp half => !(j.opcode == 0x54 && half == 0) || bs.length == 41
    | _ => bs.length == 41)

/-- The step at which the operation begins: with a cover code first where it is covered (R280, R288). -/
def opStart (j : Job) : AirStep :=
  if j.opcode = 0x54 ∨ (j.opcode = 0x52 ∧ bitAt (j.g.args.headD 0) 29 = false ∧ fld (j.g.args.headD 0) 28 24 = 1) then .gReqRn 3
  else .gOp 0

/-- The step after a handle is acquired (R288). -/
def afterHandle (j : Job) : AirStep :=
  if j.opcode = 0x50 then .gOp 0 else if j.g.apwd ≠ 0 then .gReqRn 1 else opStart j

/-- Words read: 16 bits each after the header bit, two per word (R396). -/
def readWords (n : Nat) (bs : List Bool) : List Word :=
  packBits 8 (((bs.drop 1) ++ List.replicate (16 * n) false).take (16 * n))

/-- An access exchange failed: a round's ACTION ends with its record, a targeted command with its status (R147, R289). -/
def accessFailed (s : State) (q : Quad) (j : Job) (x : Exch) (o : Nat) (st : BitVec 8) (code : BitVec 16) : State :=
  if j.opcode = 0x50 then slotDone (leaveAct s q j o st code []) q j x o .single
  else finishAir s q j (if st ≠ stBadParam ∧ j.opcode = 0x52 ∧ stepReached s q j = 3 then stIndeterminate else st) (failBody j) code

/-- The operation has succeeded (R282, R288, R289, R396). -/
def opDone (s : State) (q : Quad) (j : Job) (x : Exch) (o : Nat) (bs : List Bool) (half : Nat) : State :=
  if j.opcode = 0x50 then slotDone (leaveAct s q j o stOk 0 (readWords j.g.rcnt bs)) q j x o .single
  else if j.opcode = 0x54 ∧ half = 0 then nextIso s q j x o (.gReqRn 4)
  else
    finishAir s q { j with writeStep := if j.opcode = 0x52 then 4 else 0 } stOk
      (nameWords (jobName j) ++ (if j.opcode = 0x51 then readWords (fld (j.g.args.headD 0) 27 24) bs else [])) 0

/-- The reply to Req_RN, Access or the operation (R288, R289). -/
def accessOutcome (s : State) (q : Quad) (j : Job) (x : Exch) (o : Nat) (st : BitVec 8) : State :=
  match replyBits x with
  | none => accessFailed s q j x o st 0
  | some bs =>
    if errorReply j bs then accessFailed s q j x o stBadParam (BitVec.ofNat 16 (natOfBits ((bs.drop 1).take 8)))
    else
      let v := BitVec.ofNat 16 (natOfBits (bs.take 16))
      match j.step with
      | .gReqRn 0 => let j := { j with handle := v }; nextIso s q j x o (afterHandle j)
      | .gReqRn 1 => nextIso s q { j with cover := v } x o (.gAccess 0)
      | .gReqRn 2 => nextIso s q { j with cover := v } x o (.gAccess 1)
      | .gReqRn 3 => nextIso s q { j with cover := v } x o (.gOp 0)
      | .gReqRn _ => nextIso s q { j with cover := v } x o (.gOp 1)
      | .gAccess 0 => nextIso s q j x o (.gReqRn 2)
      | .gAccess _ => nextIso s q j x o (opStart j)
      | .gOp half => opDone s q j x o bs half
      | _ => s

/-- The body of G_RAW: outcomes, stamp, and the reply bits of the valid frame, RBITS of them (R397). -/
def gRawBody (outs : List Word) (j : Job) (x : Exch) : List Word :=
  outs ++ stampWords x.valid.head? ++
    packBits 32 (((replyBits x).getD [] ++ List.replicate j.g.rbits false).take j.g.rbits)

/-- What follows the outcome of an ISO/IEC 18000-63 exchange. -/
def isoOutcome (s : State) (q : Quad) (j : Job) (x : Exch) (o : Nat) (st : BitVec 8) (outs : List Word) : State :=
  match j.step with
  | .gSelect i => nextIso s q j x o (if i + 1 < j.g.selects.length then .gSelect (i + 1) else .gQuery)
  | .gQuery => slotOutcome s q j x o st
  | .gSlot _ => slotOutcome s q j x o st
  | .gAck n => ackOutcome s q j x o st n
  | .gNak => slotOver s q j x o (if j.nakColl then .collision else .single)
  | .gReqRn _ => accessOutcome s q j x o st
  | .gAccess _ => accessOutcome s q j x o st
  | .gOp _ => accessOutcome s q j x o st
  | .raw => finishAir s q j (if x.expects = .none then stOk else st) (gRawBody outs j x) 0
  | _ => s

end Sys2Proof.Machine
end

