-- ==== Sys2Proof/Machine/Rounds.lean ====
section
/-! DEFINITION. Rounds and their frames: the rows that start a round, send a frame, close an exchange and end a round
(R119 to R121, R128, R129, R157, R182, R374). -/

namespace Sys2Proof.Machine

/-- The job of a group. -/
def jobOf (s : State) (q : Quad) : Option Job := s.quads[lead s q].job

/-- A job that runs rounds: ST_ROUND, ST_SELECT, G_INVENTORY. -/
def roundJob (j : Job) : Bool := isSeqOp j.opcode || j.opcode == 0x41

/-- The carrier has been on for the time the protocol asks (R87, R279), the synthesiser holds, and the directory FIFO has a
place (R148). -/
def airClear (s : State) (q : Quad) (j : Job) : Bool :=
  let x := s.quads[lead s q]
  underControl s (lead s q) && x.carrier && x.cutFrom.isNone && synReady s q &&
    decide (x.carrierAt + (if j.iso then 368640 else 122880) ≤ s.ecyc) && decide (s.dir.fifo.length < 16)

/-- The next frame of a job may begin in this E-cycle. -/
def frameDue (s : State) (q : Quad) (j : Job) : Bool :=
  let x := s.quads[lead s q]
  x.exch.isNone && (match x.next with | some n => !n.past && decide (n.notBefore ≤ s.ecyc) | none => false) &&
    airClear s q j && !(j.inRound && (match j.dwellAt with | some d => decide (d ≤ s.ecyc) | none => false))

/-- A job as a frame of its step begins: PREPARE's and COMMIT's start mark reach their write steps; an ISO/IEC 18000-63
operation reaches step 3 with its first symbol, which follows the delimiter (R111, R273, R289). -/
def stepBegins (s : State) (j : Job) : Job :=
  match j.step with
  | .prepare _ => { j with writeStep := 1 }
  | .commit _ => { j with writeStep := 3 }
  | .gOp _ => if j.opcode = 0x52 then { j with opAt := some (s.ecyc + 3072) } else j
  | _ => j

/-- What a Stamet frame counts in the summary as it is sent: nodes and early SELECTs (R389). -/
def countFrame (j : Job) (m : Summary) : Summary :=
  match j.step with
  | .node _ => { m with nodes := m.nodes + 1 }
  | .early _ => { m with early := m.early + 1 }
  | _ => m

/-- The reply a job's frame draws is a delayed one (R279). -/
def delayedReply (j : Job) : Bool := (isoFrame j).2.2 == .delayed

/-- The exchange that a frame of a job opens in this E-cycle: its end, its deadline and what it expects (R65, R86, R274,
R279). -/
def openExchange (s : State) (q : Quad) (j : Job) : Exch :=
  let w := s.inUse (aQuad q 0x04)
  let l := j.g.link
  let blank (iso : Bool) (e chip : Nat) (x : Expect) (ks : List Nat) (d : Nat) : Exch :=
    { iso := iso, startAt := s.ecyc, endAt := e, chip := chip, cs := j.st.cs, link := l,
      t1Min := Config.isoT1Min (rtcalOf l) (trcalOf l) l.dr643,
      t1Max := if iso && delayedReply j then 4915200 else Config.isoT1Max (rtcalOf l) (trcalOf l) l.dr643,
      depth := depthUsed w iso, ramp := rampUsed w (if iso then l.tari else tuOf j.st.tu),
      hasCrc := iso && replyHasCrc j.step, expects := x, kinds := ks, phase := .blanked, deadline := d,
      refAt := if x = .none then e else d, verdicts := [], valid := [], failed := [], bit := none, e0 := 0, e1 := 0, outAt := none }
  if j.iso then
    let f := isoFrame j
    let e := s.ecyc + isoLength j.g.link f.2.1 f.1
    match f.2.2 with
    | .none => blank true e (tpriUp j.g.link 1) .none [] e
    | .immediate => blank true e (tpriUp j.g.link 1) (.frame 0) [] (e + isoDeadline j.g.link false)
    | .delayed => blank true e (tpriUp j.g.link 1) (.frame 0) [] (e + isoDeadline j.g.link true)
  else
    let f := stFrame j
    let e := s.ecyc + stLength j.st.tu f.1
    let c := chipOf j.st.cr
    blank false e c f.2.1 f.2.2 (e + stDeadline f.2.1 c)

/-- What a frame's start mark applies on a group; a port that it turns on restarts the carrier wait for the frames that
follow (R87, R205, R210, R374; log entry 34). -/
def markGroup (s : State) (q : Quad) : State := each (groupOf s q) (fun r t => applyMark t r) s

/-- A frame of a job begins: what its start mark applies, and its exchange (R205, R210, R374). -/
def sendFrame (s : State) (q : Quad) (j : Job) : State :=
  let j := stepBegins s j
  let s := endHold s j.stamp
  let s := if j.iso then s else updSum s j.stamp (countFrame j)
  let s := clearChains (markGroup s q) q
  s.updQuad (lead s q) (fun x => { x with job := some j, exch := some (openExchange s (lead s q) j), next := none })

/-- The RID of a group's next round: its counter plus one, skipping the RID of the round just ended (R119). -/
def nextRid (s : State) (q : Quad) : BitVec 8 :=
  let last := (groupOf s q).map (fun r => s.quads[r].lastRid)
  let from_ := if inRing s q then s.ringRid else s.quads[lead s q].rid
  let ok (n : Nat) : Bool := !last.contains (from_ + BitVec.ofNat 8 n)
  from_ + BitVec.ofNat 8 (if ok 1 then 1 else if ok 2 then 2 else if ok 3 then 3 else if ok 4 then 4 else 5)

/-- The RID counter advances at a Stamet round's start (R119). -/
def takeRid (s : State) (q : Quad) : State × BitVec 8 :=
  let r := nextRid s q
  let s := if inRing s q then { s with ringRid := r } else s.updQuad (lead s q) (fun x => { x with rid := r })
  (each (groupOf s q) (fun p t => t.updQuad p (fun x => { x with lastRid := r })) s, r)

/-- The walk at the start of a round (R122). -/
def Walk.start : Walk :=
  { pfx := [], mode := .root, stack := [], floor := 0, second := none, silent := 0, crcPrev := false, twins := [],
    aband := false }

/-- A job at the start of a round (R122, R282, R284). -/
def roundJobStart (s : State) (j : Job) (rid : BitVec 8) (no : BitVec 16) : Job :=
  { j with
    rid := rid, roundNo := no, inRound := true, dwellHit := false, tagsRound := 0, tag := none, walk := Walk.start,
    target := if j.iso && j.g.flip && j.dwellAt.isSome then !j.target else j.target,
    dwellAt := some (s.ecyc + 24576 * (if j.iso then j.g.dwell else j.st.dwell)),
    slots := { q := j.g.qInit, qfp := 16 * j.g.qInit, done := 0, coll := false }, nakColl := false,
    step := if j.iso then (if j.g.selects.isEmpty then .gQuery else .gSelect 0) else .wake }

/-- A round starts: ROUND counter, RID, summary, ROUND_START, and its first frame (R119, R120, R389, R429). -/
def startRound (s : State) (q : Quad) (j : Job) : State :=
  let s := { s with roundCtr := s.roundCtr + 1 }
  let r := if j.iso then (s, j.rid) else takeRid s q
  let s := updSum r.1 j.stamp (fun m => { m with
    rounds := m.rounds + 1, firstRound := some (m.firstRound.getD s.roundCtr) })
  sendFrame (fireQuad s q .roundStart) q (roundJobStart s j r.2 s.roundCtr)

/-- A group's round starts if its first frame is due and PATCH_SWAP does not hold it (R119, R122, R374, R402). -/
def startDue (s : State) (q : Quad) : State :=
  match jobOf s q with
  | some j => if roundJob j && !j.inRound && frameDue s q j && s.patch.hold.isNone then startRound s q j else s
  | none => s

/-- ROUND_START: the rounds that are due in one E-cycle start, and take their ROUND, in ascending quad order up to this one
(R119, R120). -/
def execRoundStart (q : Quad) (s : State) : Host.Outcome State Fault Refusal :=
  .next (each ((leads s).filter (fun r => decide (r < lead s q)) ++ [lead s q]) (fun r t => startDue t r) s)

/-- A later frame of a round, or a frame of a single command, is due. -/
def laterDue (s : State) (q : Quad) (j : Job) : Bool := (j.inRound || !roundJob j) && frameDue s q j

/-- STAMET_FRAME_SEND (R374). -/
def execStametFrameSend (q : Quad) (s : State) : Host.Outcome State Fault Refusal :=
  .next (match jobOf s q with
    | some j => if !j.iso && laterDue s q j then sendFrame s q j else s
    | none => s)

/-- ISO_FRAME_SEND (R279, R374). -/
def execIsoFrameSend (q : Quad) (s : State) : Host.Outcome State Fault Refusal :=
  .next (match jobOf s q with
    | some j => if j.iso && laterDue s q j then sendFrame s q j else s
    | none => s)

/-- FRAME_END: the settle phase, or the outcome of a frame that draws no reply (R157, R374). -/
def execFrameEnd (q : Quad) (s : State) : Host.Outcome State Fault Refusal :=
  .next (match exchOf s q with
    | some x =>
      if x.phase = .blanked ∧ x.endAt ≤ s.ecyc then
        updExch (frameEndWords s q) q (fun y =>
          if y.expects = .none then { y with phase := .past, outAt := some y.endAt } else { y with phase := .settle })
      else s
    | none => s)

/-- The verdicts that are combined next: those within 4c of the first (R182). -/
def combination (x : Exch) : List Verdict :=
  match x.verdicts with
  | [] => []
  | v :: _ => x.verdicts.filter (fun w => decide (w.at_ ≤ v.at_ + 4 * x.chip))

/-- A frame put among distinct frames in the order of their earliest sync. -/
def insertFrame (v : Verdict) : List Verdict → List Verdict
  | [] => [v]
  | w :: t => if v.sync < w.sync then v :: w :: t else w :: insertFrame v t

/-- The distinct valid frames of verdicts, each with its earliest sync, in the order of sync (R182). -/
def distinctFrames (vs : List Verdict) : List Verdict :=
  (vs.filter (·.ok)).foldl (fun l v =>
    match l.find? (fun w => w.rx == v.rx) with
    | some w => if v.sync < w.sync then insertFrame v (l.filter (fun u => u.rx != v.rx)) else l
    | none => insertFrame v l) []

/-- The earliest sync among the frames of an exchange that are not abandoned: combined, judged, or still on a chain (R181). -/
def referenceSync (s : State) (q : Quad) (x : Exch) : Nat :=
  let live := (groupPorts s q).filterMap (fun p => s.ports[p].recv.bind (·.sync))
  match x.valid.map (·.sync) ++ x.failed ++ x.verdicts.map (·.sync) ++ live with
  | [] => 0
  | a :: t => t.foldl min a

/-- The ports whose taps supply a frame: every port of the group for the reference frame, else those that decoded it; never
an overloaded one (R181, R182, R239; log entry 74). -/
def tapPorts (s : State) (q : Quad) (x : Exch) (c : List Verdict) (ref : Nat) (v : Verdict) : List Port :=
  let on := (groupPorts s q).filter (fun p => portPresent s p && !s.ports[p].ovld)
  if v.sync ≤ ref + x.chip then on else on.filter (fun p => c.any (fun w => w.port == p && w.ok && w.rx == v.rx))

/-- A port's correlations for a frame, each with its place in symbols, ahead of the board's offset: of CT at the pilots of the
reference port's timing, from the port's own samples; or of the reply's preamble, as given (R181, R290). -/
def tapPoints (s : State) (x : Exch) (v : Verdict) (taps : List PortTap) (p : Port) : List (Int × Cx) :=
  if x.iso then
    let g := s.ports[p].frozenGain.getD (gainOf s p)
    match taps.find? (fun t => t.port == p) with
    | some t => List.zipWith (fun (i : Nat) z => ((i : Int), atGain30 0 g (gainCorrected s p g z))) (List.range t.pil.length) t.pil
    | none => []
  else
    let c := codeChips (codeCt x.cs)
    v.pilots.map (fun (e : Nat) => (rdiv ((e : Int) - v.sync) (16 * x.chip : Nat), correlate x.chip s.ports[p].buf c e))

/-- The power of a tap at the port's RXIN ball against full scale, before the gain of GAIN 30 is taken off (R154, R230,
R240). -/
def tapPower (l : List (Int × Cx)) : Ratio := { num := (l.map (fun z => z.2.energy)).sum, den := l.length * fullScale }

/-- The tap of the highest pilot power (R154, R181). -/
def bestTap : List (Port × List (Int × Cx)) → Option (Port × List (Int × Cx))
  | [] => none
  | a :: t => some (t.foldl (fun x y =>
      let p := tapPower x.2
      let r := tapPower y.2
      if p.num * r.den < r.num * p.den then y else x) a)

/-- A valid frame with the port and level of its highest tap, and its bearing inputs (R154, R181, R182, R291, R309). -/
def validFrame (s : State) (q : Quad) (x : Exch) (c : List Verdict) (ref : Nat) (taps : List PortTap) (v : Verdict) : VFrame :=
  let ts := ((tapPorts s q x c ref v).map (fun p => (p, tapPoints s x v taps p))).filter (fun t => !t.2.isEmpty)
  let b := bestTap ts
  { rx := v.rx, sync := v.sync, best := (b.map (·.1)).getD v.port,
    rssi := match b with
      | some t => BitVec.ofNat 8 (byteOf ((tapPower t.2).inSteps 2 - 2 * gainDb 30 + 256))
      | none => 0,
    taps := ts.map (fun t => tapMeas t.1 (symbolRate x v.freq) v.step (t.2.map (fun z => (z.1, tapCorrected s t.1 z.2)))) }

/-- The bearing inputs of an EPC reply: at each port the sum of its RN16 and EPC preamble correlations weighted by their
SNRs, the EPC's rotated by the phase between the two at the port of the highest power; its SNR is the sum of both, its
Doppler the EPC's. A port without an RN16 tap enters with a weight of 0 for it (R290, R291; log entry 75). -/
def preambleSum (best : Port) (rn epc : List PilotMeas) : List PilotMeas :=
  let at_ (l : List PilotMeas) (p : Port) : Cx :=
    match l.find? (fun m => m.port == p) with
    | some m => { re := m.re, im := m.im }
    | none => { re := 1, im := 0 }
  let turnBy := if rn.isEmpty then 0 else angleOf (at_ rn best) - angleOf (at_ epc best)
  epc.map (fun m =>
    let r := (rn.find? (fun r => r.port == m.port)).getD { m with snr := 0, re := 0, im := 0 }
    let z := rotated { re := m.re, im := m.im } turnBy
    { m with snr := r.snr + m.snr, re := rdiv (r.snr * r.re + m.snr * z.re) 1000, im := rdiv (r.snr * r.im + m.snr * z.im) 1000 })

/-- Decoded names in the order of their V, then of their group (R138). -/
def insertSight (x : Sight) : List Sight → List Sight
  | [] => [x]
  | y :: t => if x.vAt < y.vAt ∨ (x.vAt = y.vAt ∧ x.group < y.group) then x :: y :: t else y :: insertSight x t

/-- A valid frame of a job's exchange is a sighting (R136, R390, R393, R397). -/
def isSighting (j : Job) : Bool := !j.iso || (match j.step with | .gAck _ => true | _ => false)

/-- The sighting of a name decoded by a job (R57, R117, R143, R145, R291, R390). -/
def sightOf (s : State) (q : Quad) (j : Job) (f : VFrame) (n : Name) (v : Nat) (twin : Bool) : Sight :=
  { name := n, iso := j.iso, stamp := stampAt f.sync, hdr := j.hdr, host := j.host,
    all := if j.opcode = 0x40 then j.st.reportAll else if j.opcode = 0x50 then j.g.reportAll else false,
    job := j.stamp, round := if roundJob j then some j.roundNo else none, twin := twin, group := lead s q,
    best := f.best, rssi := f.rssi,
    taps := if j.iso then preambleSum f.best (if j.rnTaps.any (fun m => m.port == f.best) then j.rnTaps else []) f.taps
            else f.taps,
    vAt := v, doppler := !j.iso || j.g.link.trext }

/-- Verdicts are combined: valid frames join the exchange, names enter the directory FIFO, and V is the outcome instant
(R136, R182, R374). A content that an earlier combination of the exchange has counted is not counted again (DESIGN CHOICE, log
entry 73). `taps` follows the frames in the order of their sync. -/
def combine (s : State) (q : Quad) (j : Job) (x : Exch) (taps : List (List PortTap)) (v : Nat) : State :=
  let c := combination x
  let fs := ((distinctFrames c).filter (fun w => x.valid.all (fun f => f.rx != w.rx)))
  let ref := referenceSync s q x
  let vf := List.zipWith (validFrame s q x c ref) (taps ++ List.replicate fs.length []) fs
  let ns := if isSighting j then vf.filterMap (fun f => (rxName f.rx).map (fun n => (f, n))) else []
  let twin := decide (2 ≤ ns.length + (if isSighting j then (namesOf x).length else 0))
  let s := updExch s q (fun y => { y with
    verdicts := y.verdicts.filter (fun w => !c.contains w), valid := y.valid ++ vf,
    failed := y.failed ++ (c.filter (fun w => !w.ok)).map (·.sync), outAt := some v })
  { s with dir := { s.dir with fifo := ns.foldl (fun l e => insertSight (sightOf s q j e.1 e.2 v twin) l) s.dir.fifo } }

/-- COMBINED_VERDICT: 4c + 8 after the first of the verdicts that are combined (R182). -/
def execCombinedVerdict (q : Quad) (taps : List (List PortTap)) (s : State) : Host.Outcome State Fault Refusal :=
  .next (match jobOf s q, exchOf s q with
    | some j, some x =>
      (match x.verdicts.head? with
       | some w => if w.at_ + 4 * x.chip + 8 ≤ s.ecyc then combine s q j x taps (w.at_ + 4 * x.chip + 8) else s
       | none => s)
    | _, _ => s)

/-- A synced frame is still on its way to a verdict on a port that takes part. -/
def frameLeft (s : State) (q : Quad) : Bool :=
  let on (c : Option Cand) : Bool := match c with | some c => c.sync.isSome | none => false
  (groupPorts s q).any (fun p => takesPart s p && (on s.ports[p].recv || on s.ports[p].standby))

/-- O of the exchange in progress, once it is known (R374). -/
def outcomeInstant (s : State) (q : Quad) (x : Exch) : Option Nat :=
  match x.expects with
  | .frame _ =>
    if !x.verdicts.isEmpty || frameLeft s q then none else some (x.outAt.getD (x.deadline + x.chip + 24))
  | _ => x.outAt

/-- EXCHANGE_OUTCOME: at O + 8 the exchange ends, and what follows it is decided (R184, R374). -/
def execExchangeOutcome (q : Quad) (s : State) : Host.Outcome State Fault Refusal :=
  .next (match jobOf s q, exchOf s q with
    | some j, some x =>
      match outcomeInstant s q x with
      | some o =>
        if o + 8 ≤ s.ecyc then
          let st := attemptStatus s q x
          let outs := outcomeWords s q
          let s := closeExchange s q x o
          if j.iso then isoOutcome s q j x o st outs else stOutcome s q j x o st outs
        else s
      | none => s
    | _, _ => s)

/-- DWELL_EXPIRE: no new start mark is sent; with no exchange in progress the round is over (R121). -/
def execDwellExpire (q : Quad) (s : State) : Host.Outcome State Fault Refusal :=
  .next (match jobOf s q with
    | some j =>
      if j.inRound && !j.dwellHit && (match j.dwellAt with | some d => decide (d ≤ s.ecyc) | none => false) then
        s.updQuad (lead s q) (fun x => { x with
          job := some { j with dwellHit := match x.next with | some n => !n.past | none => true },
          next := x.next.map (fun n => if n.past then n else { n with notBefore := s.ecyc, past := true }) })
      else s
    | none => s)

/-- The round after the one that ended: its place in the beam list and the sweeps; none at the sequence's end (R128). -/
def nextRound (j : Job) : Option Job :=
  if j.beamIdx + 1 < j.beams.length then some { j with beamIdx := j.beamIdx + 1 }
  else if j.sweeps ≠ 0 ∧ j.sweeps ≤ j.sweep + 1 then none
  else some { j with beamIdx := 0, sweep := j.sweep + 1 }

/-- The beam a group stands on, if one is applied (R219). -/
def beamNow (s : State) (q : Quad) : Option Nat :=
  let w := s.reg (aQuad (lead s q) 0x06)
  if bitAt w 13 then some (fld w 12 8) else none

/-- A beam's rotator load begins, with the carrier kept on (R129, R203, R205). -/
def loadRotators (s : State) (q : Quad) (b : Nat) : State :=
  each (groupOf s q) (fun r t => applyMark t r) (writeBeam s q b)

/-- The first frame of the round that follows: T2 after the last reference, or after the beam's load and settle, or the
carrier wait where a port comes newly on (R129, R374). A beam that is the applied one already is no change, and nothing is
loaded (DESIGN CHOICE, log entry 95). -/
def followRound (s : State) (q : Quad) (j : Job) (ref : Nat) : State :=
  let plan (s : State) (t : Nat) : State :=
    s.updQuad (lead s q) (fun x => { x with job := some j, next := some { notBefore := t, past := false, ref := ref } })
  match j.beams[j.beamIdx]? with
  | some b =>
    if beamNow s q = some b then plan s (ref + (if j.iso then isoT2 j.g.link else 4915))
    else
      let t := loadRotators s q b
      let new := (groupPorts s q).any (fun p => radiates t p && !radiates s p)
      plan t (s.ecyc + (if new then (if j.iso then 368640 else 122880) else 12352))
  | none => plan s (ref + (if j.iso then isoT2 j.g.link else 4915))

/-- The status ST_SELECT ends with when its round ends without the name (R109, R391). -/
def selectMissed (j : Job) : BitVec 8 := if j.walk.aband then stCollision else stNoReply

/-- A round ends and its sequence moves on or ends (R121, R128, R391). -/
def endRound (s : State) (q : Quad) (j : Job) (ref : Nat) : State :=
  if j.opcode = 0x41 then finishAir s q j (selectMissed j) (failBody j) 0
  else
    let s := if j.dwellHit then updSum s j.stamp (fun m => { m with dwells := m.dwells + 1 }) else s
    let j := { j with cutShort := j.cutShort || j.dwellHit }
    match nextRound j with
    | none => endSequence s q j (if j.cutShort then stPartial else stOk)
    | some j' => followRound (roundOver s q j) q { j' with inRound := false, dwellHit := false, tag := none } ref

/-- ROUND_END (R121). -/
def execRoundEnd (q : Quad) (s : State) : Host.Outcome State Fault Refusal :=
  .next (match jobOf s q, s.quads[lead s q].next with
    | some j, some n =>
      if n.past && s.quads[lead s q].exch.isNone && decide (n.notBefore ≤ s.ecyc) then endRound s q j n.ref else s
    | _, _ => s)

end Sys2Proof.Machine
end

