-- ==== Sys2Proof/Machine/AirCmd.lean ====
section
/-! DEFINITION. Meanings of the air commands at their dispatch: ST_ROUND to ST_RAW (R116 to R118, R388 to R393) and
G_INVENTORY to G_RAW (R282, R288, R394 to R397), and the check that sequences owe (R216). -/

namespace Sys2Proof.Machine

/-- The quads a mask names that are present. -/
def maskQuads (m : Nat) : List Quad := [0, 1, 2, 3].filter (fun q : Quad => m.testBit q.val)

/-- A mask names a part of the ring (R116). -/
def splitsRing (s : State) (m : Nat) : Bool :=
  (maskQuads m).any (fun q => (groupOf s q).any (fun r => !m.testBit r.val))

/-- The beam numbers of a list of `n` from payload word 3 (R388). -/
def beamBytes (sl : Slot) (n : Nat) : List Nat :=
  (List.range n).map (fun i => fld (pw sl (3 + i / 4)) (31 - 8 * (i % 4)) (24 - 8 * (i % 4)))

/-- A list's words, each with four beam bytes. -/
def beamWords (n : Nat) : Nat := (n + 3) / 4

/-- The checks of beam numbers: in range, unused bytes 0, and loaded on a single quad outside the ring (R128, R388). -/
def beamChks (s : State) (sl : Slot) (qs : List Quad) (n : Nat) : List Chk :=
  (List.range (4 * beamWords n)).map (fun i =>
    let b := (beamBytes sl (4 * beamWords n)).getD i 0
    paramIf (if i < n then decide (31 < b) || qs.any (fun q => !inRing s q && !beamLoaded s b q) else b != 0) (4 + i / 4))

/-- What every sequence command checks of its QUADS and of its beam list (R116, R128, R370, R375). -/
def seqQuadsBad (s : State) (m nb : Nat) : Bool :=
  m == 0 || splitsRing s m || (maskQuads m).any (fun q => !underControl s q) ||
    (decide (0 < nb ∧ 1 < (maskQuads m).length) && (maskQuads m).any (fun q => !inRing s q))

/-- Stamet parameters with every field 0. -/
def StPrm.zero : StPrm :=
  { tu := 0, cr := 0, cs := 0, all := false, nsf := false, action := 0, halt := false, reportAll := false, expect := 0,
    dwell := 1, addr := 0, cnt := 0, dsf := false, chan := 0, data := 0 }

/-- TU, CR, CS and NSF of a command that gives them in word 0 (R388, R391, R393). -/
def linkFields (w : Word) : StPrm :=
  { StPrm.zero with tu := fld w 5 4, cr := fld w 7 6, cs := fld w 9 8, all := bitAt w 10, nsf := bitAt w 11 }

/-- A link set of a group (R394). -/
def linkOf (s : State) (q : Quad) : IsoLink := if inRing s q then s.ringLink else s.quads[lead s q].link

/-- A group's link set written (R394). -/
def setLink (s : State) (q : Quad) (l : IsoLink) : State :=
  if inRing s q then { s with ringLink := l } else s.updQuad (lead s q) (fun x => { x with link := l })

/-- ISO/IEC 18000-63 parameters of a command that gives none of them. -/
def IsoPrm.zero (l : IsoLink) : IsoPrm :=
  { link := l, sel := 0, target := false, flip := false, qInit := 0, reportAll := false, action := false, rbank := 0, rcnt := 0,
    rptr := 0, dwell := 1, selects := [], apwd := 0, args := [], rbits := 0 }

/-- A job of a command, nothing of it done yet. -/
def newJob (sl : Slot) (iso : Bool) (st : StPrm) (g : IsoPrm) (step : AirStep) : Job :=
  { stamp := sl.stamp, hdr := sl.hdr, host := sl.port, opcode := hdrOpc sl.hdr, iso := iso, st := st, g := g, beams := [],
    beamIdx := 0, sweeps := 1, sweep := 0, want := none, ticket := 0, rid := 0, roundNo := 0, inRound := false,
    dwellAt := none, dwellHit := false, tagsRound := 0, step := step, walk := Walk.start,
    slots := { q := 0, qfp := 0, done := 0, coll := false }, rn16 := 0, rnTaps := [], opAt := none, handle := 0, cover := 0,
    nakColl := false, tag := none,
    writeStep := 0, target := g.target, rawBits := [], rawCrc := false, rawReply := 0, cutShort := false, oldLink := .reset,
    oldSel := none }

/-- A sequence command starts: a job on each group it names, their link sets written where it gives one and their selections
cleared, its check due (R216, R389, R390, R394). -/
def startSeqs (s : State) (k : Word) (m : Nat) (j : Job) (l : Option IsoLink) : State :=
  let qs := (maskQuads m).filter (fun q => lead s q == q)
  let s := each qs (fun q t =>
    let j := { j with oldLink := linkOf t q, oldSel := t.quads[lead t q].sel }
    setJob (dropSel (match l with | some l => setLink t q l | none => t) q) q j) s
  let s := updSlot s k (fun x => { x with waits := .air, openSeqs := qs.length, hasWait := true })
  owe s k [(s.ecyc + 24, .check)] []

/-- ST_ROUND's parameters (R388). -/
def roundPrm (sl : Slot) : StPrm :=
  let w := pw sl 0
  let a := pw sl 2
  { linkFields w with
    action := fld w 13 12, halt := bitAt w 14, reportAll := bitAt w 15, expect := fld w 31 16, dwell := fld (pw sl 1) 13 0,
    addr := fld a 7 0, cnt := fld a 11 8, dsf := bitAt a 12, chan := fld a 19 16 }

/-- The bits of ST_ROUND's word 2 that hold no argument of its ACTION: reserved ones, and the arguments it does not use
(R388). -/
def actionSpare (action : Nat) (a : Word) : Bool :=
  fld a 31 20 != 0 || fld a 15 13 != 0 || (action != 2 && fld a 19 16 != 0) || (action != 1 && fld a 12 0 != 0)

/-- The dispatch checks of ST_ROUND beyond the opcode and the TAG (R368). -/
def chkStRound (t : State) (sl : Slot) : List Chk :=
  let w := pw sl 0
  let m := fld w 3 0
  let nb := fld (pw sl 1) 29 24
  let dwell := fld (pw sl 1) 13 0
  [lengthIn sl (3 + beamWords nb) 3 11, absentIf (namesAbsent t m) 1, absentIf (nb != 0 && !Config.hasBearing t.variant) 2,
   paramIf (fld w 5 4 == 3 || fld w 7 6 == 3 || fld w 13 12 == 3 || seqQuadsBad t m nb) 1,
   paramIf (fld (pw sl 1) 31 30 != 0 || fld (pw sl 1) 15 14 != 0 || decide (32 < nb ∨ dwell = 0 ∨ 10000 < dwell)) 2,
   paramIf (actionSpare (fld w 13 12) (pw sl 2) || (fld w 13 12 == 1 && fld (pw sl 2) 11 8 == 0)) 3] ++
    beamChks t sl (maskQuads m) nb ++ [leaseIf ((maskQuads m).any (fun q => !leased t sl.port q)) 1]

/-- ST_ROUND (R116 to R118, R128, R388). -/
def execStRound (k : Stamp) (s : State) : Host.Outcome State Fault Refusal :=
  .next (attempt s k (· == 0x40) chkStRound
    (fun t sl =>
      let nb := fld (pw sl 1) 29 24
      startSeqs t k (fld (pw sl 0) 3 0)
        { newJob sl false (roundPrm sl) (IsoPrm.zero .reset) .wake with
          beams := beamBytes sl nb, sweeps := fld (pw sl 1) 23 16 } none))

/-- The two-bit codes of TARI (R273, R395). -/
def tariOf (c : Nat) : Nat := 1536 * 2 ^ c

/-- The link set a G_INVENTORY gives (R395). -/
def invLink (sl : Slot) : IsoLink :=
  let w := pw sl 0
  { tari := tariOf (fld w 5 4), data1 := fld w 7 6, pw := fld w 9 8, dr643 := bitAt w 10, coding := fld w 12 11,
    trext := bitAt w 13, session := fld w 17 16, blf := fld (pw sl 1) 9 0 }

/-- The Select blocks of a G_INVENTORY: each with its first word's index; `n` blocks from word `i` (R395). -/
def selBlocks (sl : Slot) : Nat → Nat → List (Nat × SelBlock)
  | 0, _ => []
  | n + 1, i =>
    let h := pw sl i
    let len := fld h 15 8
    let m := (len + 31) / 32
    (i, { target := fld h 2 0, action := fld h 5 3, bank := fld h 7 6, pointer := pw sl (i + 1), length := len,
          mask := (List.range m).map (fun a => pw sl (i + 2 + a)) }) :: selBlocks sl n (i + 2 + m)

/-- The Select blocks of a G_INVENTORY. -/
def invBlocks (sl : Slot) : List (Nat × SelBlock) :=
  selBlocks sl (fld (pw sl 0) 28 26) (3 + beamWords (fld (pw sl 1) 29 24))

/-- The length a G_INVENTORY's fields imply (R367, R395). -/
def invLength (sl : Slot) : Nat :=
  3 + beamWords (fld (pw sl 1) 29 24) + ((invBlocks sl).map (fun b => 2 + b.2.mask.length)).sum

/-- G_INVENTORY's parameters (R282, R395). -/
def invPrm (sl : Slot) : IsoPrm :=
  let w := pw sl 0
  let a := pw sl 2
  { IsoPrm.zero (invLink sl) with
    sel := fld w 15 14, target := bitAt w 18, flip := bitAt w 19, qInit := fld w 23 20, reportAll := bitAt w 25,
    action := bitAt w 24, rbank := fld a 31 30, rcnt := fld a 29 26, rptr := fld a 11 0, dwell := fld a 25 12,
    selects := (invBlocks sl).map (·.2) }

/-- The dispatch checks of G_INVENTORY beyond the opcode and the TAG (R368). -/
def chkGInventory (t : State) (sl : Slot) : List Chk :=
  let w := pw sl 0
  let m := fld w 3 0
  let nb := fld (pw sl 1) 29 24
  let blf := fld (pw sl 1) 9 0
  let a := pw sl 2
  let dwell := fld a 25 12
  let blfBad := decide (blf < 40 ∨ 640 < blf)
  [lengthIn sl (invLength sl) 3 253, absentIf (namesAbsent t m) 1, absentIf (nb != 0 && !Config.hasBearing t.variant) 2,
   paramIf (fld w 31 29 != 0 || decide (4 < fld w 28 26) || fld w 15 14 == 1 || fld w 9 8 == 3 || fld w 7 6 == 3 ||
     fld w 5 4 == 3 || seqQuadsBad t m nb || (!blfBad && !linkOk (invLink sl))) 1,
   paramIf (fld (pw sl 1) 31 30 != 0 || fld (pw sl 1) 15 10 != 0 || decide (32 < nb) || blfBad) 2,
   paramIf (decide (dwell = 0 ∨ 10000 < dwell) ||
     (if bitAt w 24 then fld a 31 30 == 0 || fld a 29 26 == 0 else fld a 31 26 != 0 || fld a 11 0 != 0)) 3] ++
    beamChks t sl (maskQuads m) nb ++
    (invBlocks sl).map (fun b => paramIf (fld (pw sl b.1) 31 16 != 0 || b.2.bank == 0 || decide (4 < b.2.target)) (1 + b.1)) ++
    [leaseIf ((maskQuads m).any (fun q => !leased t sl.port q)) 1]

/-- G_INVENTORY (R130, R272, R282, R367, R394, R395). -/
def execGInventory (k : Stamp) (s : State) : Host.Outcome State Fault Refusal :=
  .next (attempt s k (· == 0x50) chkGInventory
    (fun t sl =>
      let nb := fld (pw sl 1) 29 24
      startSeqs t k (fld (pw sl 0) 3 0)
        { newJob sl true StPrm.zero (invPrm sl) .gQuery with beams := beamBytes sl nb, sweeps := fld (pw sl 1) 23 16 }
        (some (invLink sl))))

/-- The first listed beam that the checker refuses on a group of the command, as its place in the list (R216). -/
def beamRefused (s : State) (qs : List Quad) (beams : List Nat) : Option Nat :=
  (List.range beams.length).find? (fun i => qs.any (fun q => !admitsBeam s q (beams.getD i 0)))

/-- A group's first frame: after the beam's load and settle where one is listed, after the carrier wait, and T2 after the
last exchange (R84, R85, R87, R129, R279, R374). -/
def firstFrame (s : State) (q : Quad) (j : Job) : State :=
  let t := match j.beams.head? with
    | some b => each (groupOf s q) (fun r u => applyIfIdle u r) (writeBeam s q b)
    | none => s
  let c := t.quads[lead t q].carrierAt + (if j.iso then 368640 else 122880)
  let n := max t.quads[lead t q].airAfter (max (s.ecyc + (if j.beams.isEmpty then 0 else 12288)) c)
  t.updQuad (lead t q) (fun x => { x with next := some { notBefore := n, past := false, ref := s.ecyc } })

/-- A sequence that the ceiling refuses leaves its group as it was: link set and selection are put back (R216). -/
def undoSeq (s : State) (q : Quad) : State :=
  match s.quads[lead s q].job with
  | some j =>
    let s := clearAir (if j.iso then setLink s q j.oldLink else s) q
    s.updQuad (lead s q) (fun x => { x with sel := j.oldSel })
  | none => s

/-- A sequence command at dispatch + 24: the ceiling with every listed beam, then the first beam and the first frame's
time (R129, R216, R374). -/
def seqCheck (s : State) (k : Word) (_sl : Slot) : State :=
  let qs := (leads s).filter (fun q => match s.quads[q].job with | some j => j.stamp == k | none => false)
  match qs.head?.bind (fun q => s.quads[q].job) with
  | none => s
  | some j =>
    match beamRefused s qs j.beams with
    | some i => (refuseLate (each qs (fun q t => undoSeq t q) s) k stCeiling (4 + i / 4)).spend
    | none => (each qs (fun q t => firstFrame t q j) s).spend

/-- What every single air command checks of its quad (R375, R383, R390). -/
def airChks (s : State) (sl : Slot) (bad : Bool) (sel : Bool) : List Chk :=
  let q := quadField sl
  [quadAbsent s sl,
   paramIf (bad || notLead s q || !underControl s q || (sel && s.quads[lead s q].sel.isNone)) 1]

/-- The lease a single air command needs, the last check (R360). -/
def airLease (s : State) (sl : Slot) : Chk := leaseIf (!leased s sl.port (quadField sl)) 1

/-- A single air command starts: its job, and its first frame no earlier than dispatch + 24, the carrier wait and T2 after
the last exchange (R84, R85, R374). -/
def startAir (s : State) (k : Word) (q : Quad) (j : Job) : State :=
  let c := s.quads[lead s q].carrierAt + (if j.iso then 368640 else 122880)
  let s := s.updQuad (lead s q) (fun x => { x with
    job := some j, next := some { notBefore := max x.airAfter (max (s.ecyc + 24) c), past := false, ref := s.ecyc } })
  updSlot s k (fun x => { x with waits := .air, hasWait := true })

/-- The dispatch checks of ST_SELECT beyond the opcode and the TAG (R368). -/
def chkStSelect (t : State) (sl : Slot) : List Chk :=
  let w := pw sl 0
  let dwell := fld w 29 16
  lengthIf sl 4 :: (airChks t sl (fld w 15 12 != 0 || fld w 3 0 != 0 || fld w 5 4 == 3 || fld w 7 6 == 3 ||
    decide (dwell = 0 ∨ 10000 < dwell)) false ++ [airLease t sl])

/-- ST_SELECT (R391). -/
def execStSelect (k : Stamp) (s : State) : Host.Outcome State Fault Refusal :=
  .next (attempt s k (· == 0x41) chkStSelect
    (fun t sl =>
      let q := quadField sl
      startAir (dropSel t q) k q
        { newJob sl false { linkFields (pw sl 0) with dwell := fld (pw sl 0) 29 16 } (IsoPrm.zero .reset) .wake with
          want := some (nameAt sl 1) }))

/-- The job of a command on the held selection (R390, R392). -/
def selJob (s : State) (sl : Slot) (f : StPrm → StPrm) : Job :=
  match s.quads[lead s (quadField sl)].sel with
  | some x =>
    { newJob sl false (f { x.st with action := 0, halt := false }) (IsoPrm.zero .reset) (.reselect 0) with
      want := some x.name, ticket := x.ticket, rid := x.rid }
  | none => newJob sl false (f StPrm.zero) (IsoPrm.zero .reset) (.reselect 0)

/-- The dispatch checks of ST_READ beyond the opcode and the TAG (R368). -/
def chkStRead (t : State) (sl : Slot) : List Chk :=
  let w := pw sl 0
  lengthIf sl 1 :: (airChks t sl (fld w 29 13 != 0 || fld w 11 8 == 0) true ++ [airLease t sl])

/-- ST_READ (R99, R390, R392). -/
def execStRead (k : Stamp) (s : State) : Host.Outcome State Fault Refusal :=
  .next (attempt s k (· == 0x42) chkStRead
    (fun t sl =>
      let w := pw sl 0
      startAir t k (quadField sl) (selJob t sl (fun p => { p with
        action := 1, addr := fld w 7 0, cnt := fld w 11 8, dsf := bitAt w 12 }))))

/-- The dispatch checks of ST_WRITE beyond the opcode and the TAG (R368). -/
def chkStWrite (t : State) (sl : Slot) : List Chk :=
  lengthIf sl 2 :: (airChks t sl (fld (pw sl 0) 29 8 != 0) true ++
    [paramIf (fld (pw sl 1) 31 16 != 0) 2, airLease t sl])

/-- ST_WRITE (R111, R112, R392). -/
def execStWrite (k : Stamp) (s : State) : Host.Outcome State Fault Refusal :=
  .next (attempt s k (· == 0x43) chkStWrite
    (fun t sl =>
      startAir t k (quadField sl) (selJob t sl (fun p => { p with
        addr := fld (pw sl 0) 7 0, data := BitVec.ofNat 16 (fld (pw sl 1) 15 0) }))))

/-- The dispatch checks of ST_HALT beyond the opcode and the TAG (R368). -/
def chkStHalt (t : State) (sl : Slot) : List Chk :=
  lengthIf sl 1 :: (airChks t sl (fld (pw sl 0) 29 0 != 0) true ++ [airLease t sl])

/-- ST_HALT (R390, R392). -/
def execStHalt (k : Stamp) (s : State) : Host.Outcome State Fault Refusal :=
  .next (attempt s k (· == 0x44) chkStHalt
    (fun t sl =>
      let q := quadField sl
      startAir t k q (selJob t sl id)))

/-- The dispatch checks of ST_SENSE beyond the opcode and the TAG (R368). -/
def chkStSense (t : State) (sl : Slot) : List Chk :=
  lengthIf sl 1 :: (airChks t sl (fld (pw sl 0) 29 4 != 0) true ++ [airLease t sl])

/-- ST_SENSE (R102, R392). -/
def execStSense (k : Stamp) (s : State) : Host.Outcome State Fault Refusal :=
  .next (attempt s k (· == 0x45) chkStSense
    (fun t sl =>
      startAir t k (quadField sl) (selJob t sl (fun p => { p with action := 2, chan := fld (pw sl 0) 3 0 }))))

/-- The dispatch checks of ST_RAW beyond the opcode and the TAG (R368). -/
def chkStRaw (t : State) (sl : Slot) : List Chk :=
  let w := pw sl 0
  let n := fld w 27 20
  lengthIn sl (1 + (n + 31) / 32) 2 4 :: (airChks t sl (fld w 29 28 != 0 || fld w 19 16 != 0 || fld w 11 10 != 0 ||
    fld w 3 0 != 0 || decide (n < 7 ∨ 80 < n ∨ 4 < fld w 14 12) || fld w 5 4 == 3 || fld w 7 6 == 3) false ++ [airLease t sl])

/-- ST_RAW (R367, R392, R393). -/
def execStRaw (k : Stamp) (s : State) : Host.Outcome State Fault Refusal :=
  .next (attempt s k (· == 0x46) chkStRaw
    (fun t sl =>
      let w := pw sl 0
      let q := quadField sl
      startAir (dropSel t q) k q
        { newJob sl false (linkFields w) (IsoPrm.zero .reset) .raw with
          rawBits := (wordsBits (sl.payload.drop 1)).take (fld w 27 20), rawCrc := bitAt w 15, rawReply := fld w 14 12 }))

/-- The checks the targeted commands share: their word 0, their link set, and what word 5 asks (R275, R288, R396). -/
def targetChks (s : State) (sl : Slot) (bad5 : Bool) : List Chk :=
  let n := fld (pw sl 0) 6 0
  airChks s sl (fld (pw sl 0) 29 7 != 0 || decide (n = 0 ∨ 96 < n) || !linkOk (linkOf s (quadField sl))) false ++
    [paramIf bad5 6, airLease s sl]

/-- A targeted command starts: Select on SL by the EPC mask behind the PC word, then its Query (R288, R396). -/
def startTarget (s : State) (k : Word) (sl : Slot) : State :=
  let q := quadField sl
  let n := fld (pw sl 0) 6 0
  let l := linkOf s q
  let b : SelBlock := { target := 4, action := 0, bank := 1, pointer := 0x20, length := n, mask := [pw sl 2, pw sl 3, pw sl 4] }
  startAir (dropSel s q) k q
    (newJob sl true StPrm.zero
      { IsoPrm.zero l with sel := 3, selects := [b], apwd := pw sl 1, args := sl.payload.drop 5 } (.gSelect 0))

/-- The dispatch checks of G_READ beyond the opcode and the TAG (R368). -/
def chkGRead (t : State) (sl : Slot) : List Chk :=
  let w := pw sl 5
  lengthIf sl 6 :: targetChks t sl (fld w 29 28 != 0 || fld w 23 16 != 0 || fld w 27 24 == 0)

/-- G_READ (R396). -/
def execGRead (k : Stamp) (s : State) : Host.Outcome State Fault Refusal :=
  .next (attempt s k (· == 0x51) chkGRead
    (fun t sl => startTarget t k sl))

/-- The dispatch checks of G_WRITE beyond the opcode and the TAG (R368). -/
def chkGWrite (t : State) (sl : Slot) : List Chk :=
  let w := pw sl 5
  let n := fld w 28 24
  lengthIn sl (if bitAt w 29 then 6 else 6 + (n + 1) / 2) 6 253 ::
    targetChks t sl (fld w 23 16 != 0 || decide (n = 0 ∨ 16 < n))

/-- G_WRITE (R289, R396). -/
def execGWrite (k : Stamp) (s : State) : Host.Outcome State Fault Refusal :=
  .next (attempt s k (· == 0x52) chkGWrite
    (fun t sl => startTarget t k sl))

/-- The dispatch checks of G_LOCK beyond the opcode and the TAG (R368). -/
def chkGLock (t : State) (sl : Slot) : List Chk :=
  lengthIf sl 6 :: targetChks t sl (fld (pw sl 5) 31 20 != 0)

/-- G_LOCK (R396). -/
def execGLock (k : Stamp) (s : State) : Host.Outcome State Fault Refusal :=
  .next (attempt s k (· == 0x53) chkGLock
    (fun t sl => startTarget t k sl))

/-- The dispatch checks of G_KILL beyond the opcode and the TAG (R368). -/
def chkGKill (t : State) (sl : Slot) : List Chk :=
  lengthIf sl 6 :: targetChks t sl (pw sl 5 == 0)

/-- G_KILL (R396). -/
def execGKill (k : Stamp) (s : State) : Host.Outcome State Fault Refusal :=
  .next (attempt s k (· == 0x54) chkGKill
    (fun t sl => startTarget t k sl))

/-- The frame's first bits are a command code of R280, and a Select has Truncate = 0; its Truncate bit stands before its
CRC-16 (R280, R281; log entry 22). -/
def rawPermitted (bs : List Bool) : Bool :=
  let n := natOfBits (bs.take 4)
  let c := natOfBits (bs.take 8)
  if n < 8 then true
  else if n = 0xA then decide (bs.length ≤ 17) || !(bs.getD (bs.length - 17) false)
  else n == 8 || n == 9 || decide (8 ≤ bs.length ∧ 0xC0 ≤ c ∧ c ≤ 0xC8)

/-- The bits of a G_RAW frame. -/
def gRawBits (sl : Slot) : List Bool := (wordsBits (sl.payload.drop 1)).take (fld (pw sl 0) 9 0)

/-- The dispatch checks of G_RAW beyond the opcode and the TAG (R368). -/
def chkGRaw (t : State) (sl : Slot) : List Chk :=
  let w := pw sl 0
  let n := fld w 9 0
  lengthIn sl (1 + (n + 31) / 32) 2 17 ::
    (airChks t sl (bitAt w 26 || fld w 15 10 != 0 || fld w 28 27 == 3 || fld w 25 16 == 0 || decide (n < 4 ∨ 512 < n)) false ++
      [paramIf (!rawPermitted (gRawBits sl)) 2, airLease t sl])

/-- G_RAW (R281, R367, R397). -/
def execGRaw (k : Stamp) (s : State) : Host.Outcome State Fault Refusal :=
  .next (attempt s k (· == 0x55) chkGRaw
    (fun t sl =>
      let w := pw sl 0
      let q := quadField sl
      startAir (dropSel t q) k q
        { newJob sl true StPrm.zero { IsoPrm.zero (linkOf t q) with args := sl.payload, rbits := fld w 25 16 } .raw with
          rawBits := gRawBits sl, rawReply := fld w 28 27 }))

end Sys2Proof.Machine
end

