-- ==== Sys2Proof/Machine/Gaps.lean ====
section
/-! DEFINITION. The Juggler's gaps and their end (R296 to R300), and Barker's schedule as they see it (R263, R264). -/

namespace Sys2Proof.Machine

/-- A Barker period (R263). -/
def barkPeriod : Nat := 24576000

/-- The armed ports in slot order (R263). -/
def armedPorts (s : State) : List Port := allPorts.filter (fun p => s.bark.armed.getLsbD p.val)

/-- The slot of a port in the period in progress: its first E-cycle (R263). -/
def slotAt (s : State) (p : Port) : Nat := s.bark.periodAt + 122880 * (armedPorts s).idxOf p

/-- First and last slot of a group in the period in progress (R264). -/
def groupSlots (s : State) (q : Quad) : Option (Nat × Nat) :=
  let ps := (armedPorts s).filter (fun p => (groupPorts s q).contains p)
  match ps.head?, ps.getLast? with
  | some a, some b => some (slotAt s a, slotAt s b)
  | _, _ => none

/-- The armed ports of the period that is next (R262). -/
def nextArmed (s : State) : List Port :=
  let m := s.bark.nextMask.getD s.bark.armed
  allPorts.filter (fun p => m.getLsbD p.val)

/-- The first slot of a group in the next period (R263, R264). -/
def nextFirst (s : State) (q : Quad) : Option Nat :=
  ((nextArmed s).find? (fun p => (groupPorts s q).contains p)).map (fun p =>
    s.bark.periodAt + barkPeriod + 122880 * (nextArmed s).idxOf p)

/-- No Barker slot of the group, counted from its synthesiser's power-up to the slot's end, is on or begins within 200 µs, in
this period or, with the mask then in force, in the next (R262, R264, R296). -/
def barkerClear (s : State) (q : Quad) : Bool :=
  (match groupSlots s q with
   | some (a, b) => decide (s.ecyc + 68813 < a ∨ b + 122880 ≤ s.ecyc)
   | none => true) &&
  (match nextFirst s q with
   | some a => decide (s.ecyc + 68813 < a)
   | none => true)

/-- A command names a quad by a mask of quads: LEASE, UNLEASE and FIELD_OFF (R361, R362, R384). -/
def masksQuad (s : State) (q : Quad) (x : Slot) : Bool :=
  (hdrOpc x.hdr == 0x04 || hdrOpc x.hdr == 0x05 || hdrOpc x.hdr == 0x23) &&
    (groupOf s q).any (fun r => (fld (pw x 0) 3 0).testBit r.val)

/-- A command that names the group is queued or executing (R296). -/
def commandNames (s : State) (q : Quad) : Bool :=
  s.car.slots.any (fun x => x.phase != .completed && (x.units.any (clash s (.quad q)) || masksQuad s q x))

/-- A command that names the group dispatches in this E-cycle: it ends the gap (R296). -/
def dispatchNames (s : State) (q : Quad) : Bool :=
  s.car.slots.any (fun x => x.phase != .waiting && x.dispAt == s.ecyc && (x.units.any (clash s (.quad q)) || masksQuad s q x))

/-- The gap that is open on a group: 0 none, 1 idle, 2 quiet, 3 inter-round, which only follows a round of a sequence, 4
turnaround (R296, R316). -/
def gapNow (s : State) (q : Quad) : Nat :=
  let x := s.quads[q]
  if !quadPresent s q || lead s q != q then 0
  else
    match x.job with
    | some j =>
      (match x.next with
       | some n =>
         if x.exch.isSome || decide (n.notBefore ≤ s.ecyc) || x.jug.shut == n.notBefore || dispatchNames s q then 0
         else if j.inRound then 4
         else if isSeqOp j.opcode && j.dwellAt.isSome then 3
         else 0
       | none => 0)
    | none =>
      if commandNames s q then 0
      else if underControl s q then 2
      else if !fieldIsOn s q && barkerClear s q then 1
      else 0

/-- A gap has ended under a running step of the Juggler: it is abandoned and counts once (R298). -/
def stepAbandon (s : State) (q : Quad) : State :=
  if s.quads[q].jug.stepFrom.isSome && !s.quads[q].jug.run then bump (stepOff s q) 0x0162 else s

/-- The gaps as an E-cycle leaves them: one that opened is timed from here, and SYS_JUG_CTRL is in use as written; one that
ended abandons its step (R298, R318). -/
def gapWatch (s : State) (q : Quad) : State :=
  let g := gapNow s q
  let s := if dispatchNames s q then
      s.updQuad q (fun x => { x with jug := { x.jug with shut := (x.next.map (·.notBefore)).getD x.jug.shut } })
    else s
  if g = s.quads[q].jug.gap then s
  else
    let s := if s.quads[q].jug.gap = 0 then s
      else
        let t := stepAbandon s q
        if t.quads[q].jug.forStep then jugRelease t q else t
    let s := s.updQuad q (fun x => { x with jug := { x.jug with gap := g, gapAt := s.ecyc } })
    if g = 0 then s else s.apply1 0x0160

/-- The gaps of every quad. -/
def watchGaps (s : State) : State := each ([0, 1, 2, 3] : List Quad) (fun q t => gapWatch t q) s

end Sys2Proof.Machine
end

