-- ==== Sys2Proof/Machine/Barker.lean ====
section
/-! DEFINITION. Barker: arming, the turn of a period, slots, the comparison and its record (R218, R262 to R271, R403). -/

namespace Sys2Proof.Machine

/-- External-PA mode in effect on a port's quad (R213, R219). -/
def extPort (s : State) (p : Port) : Bool := bitAt (s.reg (aQuad (quadOf p) 0x05)) 17

/-- A mask comes into force: its ports are armed and capture afresh, the others are disarmed (R262, R268). -/
def armMask (s : State) (m : BitVec 16) : State :=
  let was := s.bark.armed
  let s := each allPorts (fun p t =>
    if m.getLsbD p.val || was.getLsbD p.val then (dropBase t p).setRegBit (aPort p 0x2B) 9 (m.getLsbD p.val) else t) s
  { s with bark := { s.bark with armed := m, nextMask := none } }

/-- The quads Barker had left take part again where their token is FREE as a period begins (R40). -/
def unyield (s : State) : State :=
  let keep := maskOf (([0, 1, 2, 3] : List Quad).filter (fun q =>
    s.bark.yielded.getLsbD q.val && s.quads[q].token != .free))
  { s with bark := { s.bark with yielded := BitVec.ofNat 4 keep } }

/-- A period has ended and the next begins, with a new mask if one waits (R262, R263). -/
def barkTurn (s : State) : State :=
  if s.bark.armed != 0 && decide (s.bark.periodAt + barkPeriod ≤ s.ecyc) then
    let s := unyield { s with bark := { s.bark with periodAt := s.bark.periodAt + barkPeriod } }
    match s.bark.nextMask with
    | some m => armMask s m
    | none => s
  else s

/-- The bursts of a group that have ramped down: drivers off, the tokens FREE again (R39, R263). -/
def endBursts (s : State) (q : Quad) : State :=
  each (groupPorts s q) (fun p t =>
    if t.ports[p].burst.isSome && !bursting t p then barkerFree (burstOff t p) q else t) s

/-- The Barker sequencer lets go of a group's synthesiser (R264). -/
def barkRelease (s : State) (q : Quad) : State :=
  powerSynths (s.updQuad q (fun x => { x with syn := { x.syn with barker := false } }))

/-- Every burst in progress ramps down at once (R262). -/
def rampBursts (s : State) : State :=
  each allPorts (fun p t =>
    if bursting t p then t.updPort p (fun x => { x with burstCut := some (x.burstCut.getD t.ecyc) }) else t) s

/-- No port of a group has a burst that has not ended. -/
def quiet (s : State) (q : Quad) : Bool := (groupPorts s q).all (fun p => s.ports[p].burst.isNone)

/-- The dispatch checks of BARKER_ARM beyond the opcode and the TAG (R368). -/
def chkBarkerArm (t : State) (sl : Slot) : List Chk :=
  let ps := allPorts.filter (fun p => (fld (pw sl 0) 15 0).testBit p.val)
  [lengthIf sl 1, absentIf (!Config.hasBearing t.variant || ps.any (fun p => !portPresent t p)) 1,
   paramIf (fld (pw sl 0) 31 16 != 0 || ps.any (extPort t)) 1,
   leaseIf (ps.any (fun p => !leased t sl.port (quadOf p))) 1]

/-- BARKER_ARM (R213, R262, R368). -/
def execBarkerArm (k : Stamp) (s : State) : Host.Outcome State Fault Refusal :=
  .next (attempt s k (· == 0x28) chkBarkerArm
    (fun t _ => owe t k [(t.ecyc + 24, .barkerArm)] []))

/-- BARKER_ARM at dispatch + 24: R218's ceiling for a mask that names a port, then the mask in force at once where none
was armed or where it is zero, else at the next period's start (R262). -/
def barkerArm (s : State) (k : Word) (sl : Slot) : State :=
  let m := BitVec.ofNat 16 (fld (pw sl 0) 15 0)
  if m != 0 && decide ((fld s.boot.ceiling 9 0 : Int) < (fld s.boot.ceiling 19 10 : Int) - 40) then
    refuseLate s k stCeiling 1
  else
    let s := { s with bark := { s.bark with owner := sl.port, hdr := sl.hdr } }
    let s := if m = 0 then
        let s := armMask (rampBursts (each (leads s) (fun q t => endBursts t q) s)) 0
        each ((leads s).filter (quiet s)) (fun q t => barkRelease t q) s
      else if s.bark.armed = 0 then
        unyield (armMask { s with bark := { s.bark with periodAt := s.ecyc } } m)
      else { s with bark := { s.bark with nextMask := some m } }
    updSlot s k (fun x => { x with body := [put 0 16 s.bark.armed.toNat] })

/-- From 80 µs before the group's first slot of a period to the end of its last (R264). -/
def powerUpTime (s : State) (q : Quad) : Bool :=
  (match groupSlots s q with
   | some (a, b) => decide (a ≤ s.ecyc + 19661 ∧ s.ecyc < b + 122880)
   | none => false) ||
  (match nextFirst s q with
   | some a => decide (a ≤ s.ecyc + 19661)
   | none => false)

/-- BARKER_SYN_POWERUP (R264). -/
def execBarkerSynPowerup (q : Quad) (s : State) : Host.Outcome State Fault Refusal :=
  .next (if s.bark.armed != 0 && quadPresent s q && lead s q == q && !s.quads[q].syn.barker && powerUpTime s q then
    powerSynths (s.updQuad q (fun x => { x with syn := { x.syn with barker := true } }))
  else s)

/-- A slot is skipped: no lock or a calibration, no channel inside the region, a token of the group that is not FREE, the
quad displaced in this period, or external-PA mode (R40, R196, R213, R264). -/
def slotSkips (s : State) (p : Port) : Bool :=
  let q := quadOf p
  !synReady s q || !channelOk s q || (groupOf s q).any (fun r => s.quads[r].token != .free) ||
    s.bark.yielded.getLsbD q.val || extPort s p

/-- BARKER_SLOT: at its slot start an armed port bursts, or the slot is skipped and counts; PORT_BARK_CFG is in use as
written (R39, R263 to R265, R271). -/
def execBarkerSlot (p : Port) (s : State) : Host.Outcome State Fault Refusal :=
  let e := slotAt s p
  .next (if s.bark.armed.getLsbD p.val && decide (e ≤ s.ecyc ∧ s.ecyc < e + 122880) && s.ports[p].slotNo != e + 1 then
    let q := quadOf p
    let s := (endBursts s q).apply1 (aPort p 0x2C)
    let s := s.updPort p (fun x => { x with slotNo := e + 1, compared := false })
    if slotSkips s p then bump s (aPort p 0x2F)
    else
      let s := (setToken s q .barker).updPort p (fun x => { x with burst := some e, burstCut := none })
      applyCodes (s.setRegBit (aPort p 0x20) 8 true) q
  else s)

/-- A component of Γ as the registers hold it: int16 of 2^-15, to the nearest (R270). -/
def gammaInt (v : Int) (exp : Nat) : Nat :=
  toBits 16 (max (-32768) (min 32767 ((v * 2 ^ 16 + 2 ^ exp) / 2 ^ (exp + 1))))

/-- Γ as PORT_BARK_LAST and PORT_BARK_BASE lay it out (R270). -/
def gammaWord (g : Gamma) : Word := put 0 16 (gammaInt g.re g.exp) ||| put 16 16 (gammaInt g.im g.exp)

/-- Γ - Γ_b, over the larger power of two. -/
def gammaSub (a b : Gamma) : Gamma :=
  let e := max a.exp b.exp
  { re := a.re * 2 ^ (e - a.exp) - b.re * 2 ^ (e - b.exp), im := a.im * 2 ^ (e - a.exp) - b.im * 2 ^ (e - b.exp), exp := e }

/-- THR of the configuration in use, its limits applied (R267, R270). -/
def barkThr (c : Word) : Nat := max 40 (min 200 (fld c 7 0))

/-- A change exceeds: |Γ - Γ_b| ≥ 10 ^ (-THR / 20), exactly, by its fortieth power squared (R267). -/
def exceeds (d : Gamma) (thr : Nat) : Bool :=
  decide ((2 ^ (80 * d.exp) : Int) ≤ (d.re * d.re + d.im * d.im) ^ 40 * 10 ^ thr)

/-- Γ_b + 2^-BASE_TC × (Γ - Γ_b), exactly (R268). -/
def trackBase (b d : Gamma) (tc : Nat) : Gamma :=
  let e := max b.exp d.exp
  { re := b.re * 2 ^ (e - b.exp + tc) + d.re * 2 ^ (e - d.exp),
    im := b.im * 2 ^ (e - b.exp + tc) + d.im * 2 ^ (e - d.exp), exp := e + tc }

/-- A baseline is held, and its register follows (R268, R270). -/
def setBase (s : State) (p : Port) (g : Gamma) : State :=
  ((s.updPort p (fun x => { x with base := some g })).setReg (aPort p 0x2D) (gammaWord g)).setRegBit (aPort p 0x2B) 10 true

/-- BARK fires for a port: event, flag, and the Barker record to the owner (R269, R403). -/
def barkFires (s : State) (p : Port) (e : Nat) : State :=
  let s := fire (s.setRegBit (aPort p 0x2B) 8 true) (.bark p)
  let st := (stampAt (e + 122640)).toNat
  queueRecord s s.bark.owner
    { status := stOk, tag := hdrTag s.bark.hdr, alive := hdrAlive s.bark.hdr, ukind := 2, more := false, order := 0,
      body := [put 0 4 p.val, s.reg (aPort p 0x2E), s.reg (aPort p 0x2D), BitVec.ofNat 32 st, put 0 16 (st / 2 ^ 32)],
      queuedAt := 0 }

/-- One completed burst judged against the port's baseline (R267 to R269). The first after arming or invalidation captures
even while BARK is set (R268; DESIGN CHOICE, log entry 93). -/
def compareBurst (s : State) (p : Port) (e : Nat) (g : Gamma) : State :=
  let c := s.inUse (aPort p 0x2C)
  match s.ports[p].base with
  | none => setBase s p g
  | some b =>
    if bitAt (s.reg (aPort p 0x2B)) 8 then s
    else
      let d := gammaSub g b
      if exceeds d (barkThr c) then
        let run := fld (s.reg (aPort p 0x2B)) 14 12 + 1
        let s := s.setRegFld (aPort p 0x2B) 14 12 run
        if fld c 9 8 + 1 ≤ run then barkFires s p e else s
      else
        let s := s.setRegFld (aPort p 0x2B) 14 12 0
        if fld c 15 12 = 0 then s else setBase s p (trackBase b d (fld c 15 12))

/-- BARKER_COMPARE: 16 E-cycles after the measure window closes. Γ comes in units of 2^-30 (R251, R263, R267). -/
def execBarkerCompare (p : Port) (gi gq : Int) (rl : Nat) (phase : BitVec 8) (s : State) :
    Host.Outcome State Fault Refusal :=
  .next (match s.ports[p].burst with
    | some e =>
      if e + 122656 ≤ s.ecyc ∧ s.ports[p].compared = false ∧ s.ports[p].burstCut.all (fun c => decide (e + 122640 ≤ c)) = true then
        let g : Gamma := { re := gi, im := gq, exp := 30 }
        let s := s.updPort p (fun x => { x with compared := true })
        compareBurst ((s.setReg (aPort p 0x2E) (gammaWord g)).setReg (aPort p 0x29) (antWord rl phase true)) p e g
      else s
    | none => s)

/-- The Barker sequencer has done with a group's synthesiser: its last slot of the period is over, or Barker is disarmed and
the last burst has ramped down (R262, R264). A group that a new mask drops between its synthesiser's power-up and the period
has no last slot and keeps it (DESIGN CHOICE, log entry 93). -/
def barkDone (s : State) (q : Quad) : Bool :=
  lead s q == q && (match groupSlots s q with
    | some (_, b) => decide (b + 122880 ≤ s.ecyc) && !powerUpTime s q
    | none => s.bark.armed == 0 && quiet s q)

/-- BARKER_SLOT_END: the group's bursts that are over have ramped down; after its last slot the synthesiser powers down unless
R197 keeps it (R263, R264). -/
def execBarkerSlotEnd (q : Quad) (s : State) : Host.Outcome State Fault Refusal :=
  let s := endBursts s q
  .next (if barkDone s q then barkRelease s q else s)

end Sys2Proof.Machine
end

