-- ==== Sys2Proof/Machine/Juggler.lean ====
section
/-! DEFINITION. Meanings of the calibration commands and rows (10_calibration.md), and of the mismatch detector's reading
(R251, R257, R308). -/

namespace Sys2Proof.Machine

/-- Two temperatures in 0.01 °C are 8.00 °C or more apart (R295). -/
def movedOn (a b : BitVec 16) : Bool := decide (800 ≤ (a.toInt - b.toInt).natAbs)

/-- A conversion on one quad: the reading, CAL_DUE, RX_DUE of its ports, and the codes (R198, R210, R295, R303). -/
def convert (s : State) (q : Quad) (t : BitVec 16) : State :=
  let s := s.setReg (aQuad q 0x08) (put 0 16 t.toNat ||| put 16 1 1)
  let c := s.reg (aQuad q 0x02)
  let s := synBit s q 3 (bitAt c 16 || movedOn t (BitVec.ofNat 16 (fld c 15 0)) || s.quads[q].jug.calWas.isSome)
  let s := each (portsOf q) (fun p u =>
    if bitAt (u.reg (aPort p 0x32)) 0 && movedOn t (BitVec.ofNat 16 (fld (u.reg (aPort p 0x38)) 15 0)) then
      u.setRegBit (aPort p 0x32) 1 true
    else u) s
  if roundRuns s q then s else applyCodes s q

/-- QUAD_TEMP_CONVERSION: in every E-cycle 245,760 × n (R295). -/
def execQuadTempConversion (t0 t1 t2 t3 : BitVec 16) (s : State) : Host.Outcome State Fault Refusal :=
  .next (if s.tb.run && decide (0 < s.ecyc) && s.ecyc % 245760 == 0 then
    each (presentQuads s.variant) (fun q u => convert u q ([t0, t1, t2, t3].getD q.val 0)) s
  else s)

/-- The Juggler may act on a quad at all: it stands for its group, has a channel inside the region, and runs no activity, a
band calibration's relock counted as part of it (R299). -/
def jugMay (s : State) (q : Quad) : Bool :=
  quadPresent s q && lead s q == q && channelOk s q && s.quads[q].syn.calFrom.isNone && s.quads[q].jug.calWas.isNone &&
    s.quads[q].jug.stepFrom.isNone

/-- The Juggler's band calibration has its turn (R298, R299). -/
def bandTurn (s : State) (q : Quad) : Bool :=
  s.quads[q].jug.gap == 1 && gapNow s q == 1 && bitAt (s.inUse 0x0160) 0 && bitAt (s.reg (aQuad q 0x01)) 3

/-- The Juggler holds a group's synthesiser powered for its own use, powering it up where it is down (R197, R300). -/
def jugPower (s : State) (q : Quad) (step : Bool) : State :=
  let s := s.updQuad q (fun x => { x with syn := { x.syn with juggler := true }, jug := { x.jug with forStep := step } })
  if s.quads[q].syn.powered then s else powerUp s q

/-- JUGGLER_BAND_CAL (R198, R299, R300). -/
def execJugglerBandCal (q : Quad) (s : State) : Host.Outcome State Fault Refusal :=
  .next (if s.isReady && jugMay s q && bandTurn s q then
    (startCal (jugPower s q false) q).updQuad q (fun x => { x with jug := { x.jug with calWas := some (s.reg (aQuad q 0x02)) } })
  else s)

/-- A receive sequence is wanted on a group: one is in progress, or a port is due and no retry wait runs (R299, R304). -/
def rxWanted (s : State) (q : Quad) : Bool :=
  decide (0 < s.quads[q].jug.steps) ||
    ((groupPorts s q).any (fun p => portPresent s p && bitAt (s.reg (aPort p 0x32)) 1) && s.quads[q].jug.retryAt == 0)

/-- A step can still end 5 µs before a gap of known length does (R297, R302). -/
def stepFits (s : State) (q : Quad) : Bool :=
  decide (s.quads[q].jug.gap ≤ 2) ||
    (match s.quads[q].next with | some n => decide (s.ecyc + 6144 + 1229 ≤ n.notBefore) | none => false)

/-- A step starts: gain forced, tone on; QUAD_CAL_ACT shows the Juggler's step with its gap, or a CAL_RUN (R302, R303,
R316). -/
def stepOn (s : State) (q : Quad) : State :=
  let n := s.quads[q].jug.steps
  let g := if n = 0 then 0 else if n = 1 then 6 else 12
  let s := each (groupPorts s q) (fun p t =>
    (t.updPort p (fun x => { x with gainSaved := fld (t.reg (aPort p 0x12)) 4 0 })).setRegFld (aPort p 0x12) 4 0 g) s
  let s := if n = 0 then setStep s q 0 else s
  let s := s.setRegFld (aQuad q 0x09) 3 0 (if s.quads[q].jug.run then 3 else 2 + 4 * (s.quads[q].jug.gap - 1))
  s.updQuad q (fun x => { x with jug := { x.jug with
    stepFrom := some s.ecyc, seqAt := if n = 0 then s.ecyc else x.jug.seqAt, bad := if n = 0 then 0 else x.jug.bad } })

/-- RECEIVE_STEP_START: 16 E-cycles after the gap opened, once the synthesiser is locked; in an idle gap it is powered up
first where it is down (R299, R300, R302). -/
def execReceiveStepStart (q : Quad) (s : State) : Host.Outcome State Fault Refusal :=
  .next (if s.isReady && jugMay s q && !bandTurn s q && bitAt (s.inUse 0x0160) 1 && rxWanted s q &&
      s.quads[q].jug.gap != 0 && gapNow s q == s.quads[q].jug.gap && decide (s.quads[q].jug.gapAt + 16 ≤ s.ecyc) &&
      stepFits s q then
    (if synReady s q then stepOn (jugPower s q true) q else jugPower s q true)
  else s)

/-- A tone more than 6 dB from the level expected at its GAIN (R304). -/
def offLevel (m : PortCal) : Bool := decide (6000 < m.level.natAbs)

/-- The correction that brings a tone to the calibration reference in phase and to the nominal G in gain: int16 of 0.01° and
of 0.001 dB (R305, R315). -/
def toneWord (m : PortCal) : Word :=
  put 0 16 (toBits 16 (-m.phase.toInt)) ||| put 16 16 (toBits 16 (clampTo (-32768) 32767 (-m.level)))

/-- The I/Q correction of a step H: IQ_G in 0.005 dB against Q's excess, IQ_P in 0.02° for what it lacks of quadrature (R245,
R303). -/
def iqWord (m : PortCal) : Word :=
  put 0 10 (toBits 10 (clampTo (-512) 511 (rdiv (-m.qAbove) 5))) ||| put 16 10 (toBits 10 (clampTo (-512) 511 (rdiv m.qShort 2)))

/-- What a step gives on a port: B, M and H the correction of their LNA state, H the I/Q correction too (R303, R305). -/
def stepResult (n : Nat) (m : PortCal) (x : PortSt) : PortSt :=
  if n = 0 then { x with calB := toneWord m }
  else if n = 1 then { x with calM := toneWord m }
  else if n = 2 then { x with calH := toneWord m, calIq := iqWord m }
  else x

/-- A port fails in a step: it was overloaded, its tone stood off its level in B, M or H, or V verified less than 45 dB of
image rejection; a port without a measurement fails (R304). -/
def stepFails (n : Nat) (meas : List PortCal) (p : Port) : Bool :=
  match meas.find? (fun m => m.port == p) with
  | some m => m.overload || (if n = 3 then decide (m.img < 4500) else offLevel m)
  | none => true

/-- Image rejection in steps of 0.25 dB, to the nearest, held at 255 (R304, R315). -/
def imgSteps (m : PortCal) : Nat := satTo 255 ((2 * m.img + 25) / 50)

/-- A port that passes: corrections, I/Q correction, temperature and flags in one step, then CAL_DONE (R235, R304). -/
def rxGood (s : State) (p : Port) (img : Nat) : State :=
  let x := s.ports[p]
  let s := ((s.setReg (aPort p 0x33) x.calB).setReg (aPort p 0x34) x.calM).setReg (aPort p 0x35) x.calH
  let s := (s.setReg (aPort p 0x0A) (x.calIq &&& 0x03FF03FF)).setRegBit (aPort p 0x0B) 0 true
  let s := s.setReg (aPort p 0x38) (put 0 16 s.quads[quadOf p].jug.tempH.toNat ||| put 16 8 img)
  let s := (s.setRegBit (aPort p 0x32) 0 true).setRegBit (aPort p 0x32) 1 false
  let s := if fieldIsOn s (quadOf p) then s
    else each [0x0A, 0x33, 0x34, 0x35] (fun o t => t.apply1 (aPort p o)) s
  raise s (.calDone (quadOf p))

/-- A port that fails keeps every earlier correction; the quad's retry wait starts (R304, R418). -/
def rxBad (s : State) (q : Quad) (p : Port) : State :=
  let s := (s.setRegBit (aPort p 0x32) 8 true).setErr errCalFail
  let s := s.updQuad q (fun x => { x with jug := { x.jug with retryAt := s.ecyc + 14745600000 } })
  raise s (.calFail (quadOf p))

/-- The measurement a step gives of a port; all 0 where it gives none. -/
def measOf (meas : List PortCal) (p : Port) : PortCal :=
  (meas.find? (fun m => m.port == p)).getD
    { port := p, phase := 0, level := 0, qAbove := 0, qShort := 0, img := 0, overload := false }

/-- The present ports of a group, ascending. -/
def calPorts (s : State) (q : Quad) : List Port := (groupPorts s q).filter (portPresent s)

/-- The ports of a group judged at the end of step V (R304). -/
def rxJudge (s : State) (q : Quad) (meas : List PortCal) (bad : BitVec 16) : State :=
  let s := setStep s q 4
  let s := s.updQuad q (fun x => { x with jug := { x.jug with steps := 0, bad := 0 } })
  each (calPorts s q) (fun p t => if bad.getLsbD p.val then rxBad t q p else rxGood t p (imgSteps (measOf meas p))) s

/-- The ports of a group that have failed by the end of a step (R304). -/
def badBy (s : State) (q : Quad) (n : Nat) (meas : List PortCal) : BitVec 16 :=
  s.quads[q].jug.bad ||| BitVec.ofNat 16 (portMask ((calPorts s q).filter (stepFails n meas)))

/-- A step of a receive sequence ends: its results are kept, H keeps each quad's temperature, and V is judged (R302 to R304,
R315). -/
def stepDone (s : State) (q : Quad) (n : Nat) (meas : List PortCal) : State :=
  let bad := badBy s q n meas
  let s := each (calPorts s q) (fun p t => t.updPort p (stepResult n (measOf meas p))) (stepOff s q)
  let s := s.updQuad q (fun x => { x with jug := { x.jug with steps := n + 1, bad := bad } })
  let s := if n = 2 then
      each (groupOf s q) (fun r t => t.updQuad r (fun x => { x with jug := { x.jug with tempH := quadTemp s r } })) s
    else s
  if n = 3 then rxJudge s q meas bad else setStep s q (n + 1)

/-- RECEIVE_STEP_END (R302 to R304). -/
def execReceiveStepEnd (q : Quad) (meas : List PortCal) (s : State) : Host.Outcome State Fault Refusal :=
  .next (match s.quads[q].jug.stepFrom with
    | some t0 =>
      if t0 + 6144 ≤ s.ecyc ∧ s.quads[q].jug.run = false then jugRelease (stepDone s q s.quads[q].jug.steps meas) q
      else s
    | none => s)

/-- RECEIVE_SEQUENCE_EXPIRY: 1 s after its step B a sequence is discarded (R303). -/
def execReceiveSequenceExpiry (q : Quad) (s : State) : Host.Outcome State Fault Refusal :=
  .next (if (decide (0 < s.quads[q].jug.steps) || s.quads[q].jug.stepFrom.isSome) && !s.quads[q].jug.run &&
      decide (s.quads[q].jug.seqAt + 245760000 ≤ s.ecyc) then
    let s := if s.quads[q].jug.stepFrom.isSome then stepOff s q else s
    setStep (s.updQuad q (fun x => { x with jug := { x.jug with steps := 0, bad := 0 } })) q 0
  else s)

/-- RX_RETRY_WAIT_EXPIRY (R304). -/
def execRxRetryWaitExpiry (q : Quad) (s : State) : Host.Outcome State Fault Refusal :=
  .next (if s.quads[q].jug.retryAt ≠ 0 ∧ s.quads[q].jug.retryAt ≤ s.ecyc then
    s.updQuad q (fun x => { x with jug := { x.jug with retryAt := 0 } })
  else s)

/-- An aerial fault is declared on a port, and acted on by FAULT_CUT (R257 to R259, R418). -/
def antFault (s : State) (p : Port) (ant : BitVec 8) : State :=
  let a := ant.toNat
  let kind := if a ≤ 32 ∨ 224 ≤ a then 1 else if 96 ≤ a ∧ a ≤ 160 then 2 else 3
  let s := ((s.setRegBit (aPort p 0x2B) 0 true).setRegFld (aPort p 0x2B) 2 1 kind).setErr errAntFault
  let s := s.updPort p (fun x => { x with faultRun := 0 })
  let s := if bitAt (s.inUse (aPort p 0x2A)) 8 then
      (s.setRegBit (aPort p 0x21) 18 false).updPort p (fun x => { x with rampAt := some (s.ecyc + 240) })
    else s
  fire s (.antFault p)

/-- The least angle between two phases in 0.01°. -/
def phaseGap (a b : BitVec 16) : Nat :=
  let d := ((a.toInt - b.toInt) % 36000).toNat
  min d (36000 - d)

/-- An incident phase with the three terms of R306 removed, int16 in 0.01°, from -180.00 on (R307, R308). -/
def ownPhase (s : State) (p : Port) (inc : BitVec 16) : BitVec 16 :=
  BitVec.ofInt 16 ((inc.toInt - rdiv ((carrierPhase s p : Int) * 36000) 4096 + 18000) % 36000 - 18000)

/-- The drift watch of one valid reading (R308). -/
def driftWatch (s : State) (p : Port) (inc : BitVec 16) : State :=
  if 100 * max 1 (fld (s.inUse 0x0160) 11 8) < phaseGap (ownPhase s p inc) s.ports[p].driftRef then
    if 7 ≤ s.ports[p].driftRun then
      fire ((s.updPort p (fun x => { x with driftRun := 0 })).setRegBit (aPort p 0x32) 3 true) (.txphDrift (quadOf p))
    else s.updPort p (fun x => { x with driftRun := x.driftRun + 1 })
  else s.updPort p (fun x => { x with driftRun := 0 })

/-- The fault watch of one valid reading (R257). -/
def faultWatch (s : State) (p : Port) (d : DetMeas) : State :=
  if rlSteps d.rl < fld (s.inUse (aPort p 0x2A)) 5 0 then
    if 7 ≤ s.ports[p].faultRun then antFault s p d.ant
    else s.updPort p (fun x => { x with faultRun := x.faultRun + 1 })
  else s.updPort p (fun x => { x with faultRun := 0 })

/-- DETECTOR_READING: a port that radiates under CONTROL completes a reading every 4,096 E-cycles; PORT_ANT_CFG is in use as
written from here (R250, R251, R252, R271). -/
def execDetectorReading (p : Port) (d : DetMeas) (s : State) : Host.Outcome State Fault Refusal :=
  let q := quadOf p
  .next (if radiates s p && s.quads[q].token == .control && !bitAt (s.reg (aQuad q 0x05)) 17 &&
      decide (s.ports[p].detAt ≤ s.ecyc) then
    let s := (s.apply1 (aPort p 0x2A)).updPort p (fun x => { x with detAt := s.ecyc + 4096 })
    if levelReads s p then
      driftWatch (faultWatch (s.setReg (aPort p 0x29) (antWord d.rl d.phase true)) p d) p d.inc
    else (s.setRegBit (aPort p 0x29) 16 false).updPort p (fun x => { x with faultRun := 0, driftRun := 0 })
  else s)

/-- The dispatch checks of CAL_RUN beyond the opcode and the TAG (R368). -/
def chkCalRun (t : State) (sl : Slot) : List Chk :=
  let q := quadField sl
  let tx := bitAt (pw sl 0) 0
  [lengthIf sl 1, quadAbsent t sl,
   paramIf (fld (pw sl 0) 29 1 != 0 || notLead t q ||
     (if tx then !fieldIsOn t q || (groupOf t q).any (fun r => bitAt (t.reg (aQuad r 0x05)) 17) ||
       !(groupPorts t q).any (radiates t)
      else !channelOk t q)) 1,
   leaseIf (!leased t sl.port q) 1]

/-- A CAL_RUN RX has the group: QUAD_CAL_ACT shows it, and its own sequence starts in place of one of the Juggler's (R303,
R310, R316). -/
def calTake (s : State) (q : Quad) : State :=
  (s.setRegFld (aQuad q 0x09) 3 0 3).updQuad q (fun x => { x with jug := { x.jug with steps := 0, bad := 0, run := true } })

/-- CAL_RUN (R307, R310, R387). Its dispatch ends the gap of a step in progress (R296, R298). -/
def execCalRun (k : Stamp) (meas : List (List PortCal)) (s : State) : Host.Outcome State Fault Refusal :=
  .next (attempt s k (· == 0x30) chkCalRun
    (fun t sl =>
      let q := quadField sl
      let t := updSlot (stepAbandon t q) k (fun x => { x with hasWait := true })
      if bitAt (pw sl 0) 0 then
        owe (t.setRegFld (aQuad q 0x09) 3 0 3) k [(t.ecyc + 24 + 32768, .calTx q (meas.getD 0 [])), (t.ecyc + 45080, .none)] []
      else owe t k [(t.ecyc + 24, .calBegin q meas)] []))

/-- CAL_RUN RX begins its steps, or is held for a calibration or a lock (R197, R200, R310). -/
def calBegin (s : State) (k : Word) (q : Quad) (meas : List (List PortCal)) : State :=
  let again (t : State) (w : Await) : State :=
    updSlot (holdFor t k w) k (fun x => { x with effs := [(s.ecyc, .calBegin q meas)] })
  if s.quads[q].syn.calFrom.isSome then again s .calEnd
  else if !synReady s q then again (wakeSyn s q) .lock
  else
    updSlot (stepOn (calTake (endHold s k) q) q) k (fun x => { x with
      effs := (List.range 4).map (fun n => (s.ecyc + 6144 * (n + 1), .calStep q n (meas.getD n []))) })

/-- One word of a CAL_RUN reply (R387). -/
def calWord (p : Port) (pass : Bool) (img : Nat) (phase : BitVec 16) : Word :=
  put 28 4 p.val ||| put 27 1 (b2n pass) ||| put 16 8 img ||| put 0 16 phase.toNat

/-- A CAL_RUN's reply: OK where every port passed, else PARTIAL (R310). -/
def calReply (s : State) (k : Word) (ps : List Port) (good : Port → Bool) (w : Port → Word) : State :=
  updSlot s k (fun x => { x with status := if ps.all good then stOk else stPartial, body := ps.map w })

/-- A step of CAL_RUN RX ends, and the next begins in the same E-cycle; with V the ports are judged and the reply stands. Its
phase is step H's (R303, R304, R310, R387; log entry 10). -/
def calStep (s : State) (k : Word) (q : Quad) (n : Nat) (meas : List PortCal) : State :=
  let bad := badBy s q n meas
  let t := stepDone s q n meas
  if n = 3 then
    calReply (calLeave t q) k (calPorts s q) (fun p => !bad.getLsbD p.val) (fun p =>
      calWord p (!bad.getLsbD p.val) (imgSteps (measOf meas p)) (BitVec.ofNat 16 (toBits 16 (-(sext 16 (fld s.ports[p].calH 15 0))))))
  else stepOn t q

/-- The TXPH that brings a port of this phase, int16 in 0.01°, to the reference (R306, R307). -/
def txphFor (phase : BitVec 16) : Nat := toBits 12 (rdiv (-(phase.toInt * 4096)) 36000)

/-- CAL_RUN TXPH's corrections: every radiating port; one that was not measured keeps what it had and fails (R307). -/
def calTx (s : State) (k : Word) (q : Quad) (meas : List PortCal) : State :=
  let ps := (calPorts s q).filter (radiates s)
  let seen (p : Port) : Bool := meas.any (fun m => m.port == p)
  let own (p : Port) : BitVec 16 := ownPhase s p (measOf meas p).phase
  let t := each (ps.filter seen) (fun p t =>
    let t := t.setRegFld (aPort p 0x37) 11 0 (txphFor (own p))
    let t := (t.setRegBit (aPort p 0x32) 2 true).setRegBit (aPort p 0x32) 3 false
    t.updPort p (fun x => { x with driftRef := own p })) s
  let t := each (groupOf t q) (fun r u => applyIfIdle u r) t
  calReply t k ps seen (fun p => calWord p (seen p) 0 (own p))

/-- The tests of R311 on a POWER set: no code below its predecessor, none more than 2,048 from the nominal; the first
INDEX that fails. -/
def powerSetBad (tset : Nat) (codes : List (BitVec 16)) : Option Nat :=
  (List.range codes.length).find? (fun i =>
    let c := (codes.getD i 0).toNat
    let n := (Config.nominalCode tset i).toNat
    (decide (0 < i) && decide (c < (codes.getD (i - 1) 0).toNat)) || decide (n + 2048 < c ∨ c + 2048 < n))

/-- The codes a CAL_LOAD_SET carries. -/
def loadCodes (sl : Slot) : List (BitVec 16) := (sl.payload.drop 1).flatMap halves

/-- The dispatch checks of CAL_LOAD_SET beyond the opcode and the TAG; a KIND that implies no length takes either permitted
one (R367, R368; log entry 46). -/
def chkCalLoadSet (t : State) (sl : Slot) : List Chk :=
  let w := pw sl 0
  let kind := fld w 31 24
  let p : Port := ⟨fld w 19 16 % 16, by omega⟩
  let bad := if kind = 1 then powerSetBad (fld w 10 8) (loadCodes sl) else none
  [lengthIf sl (if kind = 1 ∨ (kind ≠ 2 ∧ sl.payload.length = 65) then 65 else 3), absentIf (!portPresent t p) 1,
   paramIf (!(kind == 1 || kind == 2) || fld w 23 20 != 0 || fld w 15 11 != 0 || fld w 7 0 != 0 ||
     decide (4 < fld w 10 8) || (kind == 2 && fld w 10 8 != 0)) 1,
   paramIf (kind == 2 && (fld (pw sl 2) 15 0 != 0 || fld (pw sl 2) 31 28 != 0)) 3,
   paramIf bad.isSome (match bad with | some i => 2 + i / 2 | none => 0),
   leaseIf (!leased t sl.port (quadOf p)) 1]

/-- CAL_LOAD_SET (R311, R367, R387). -/
def execCalLoadSet (k : Stamp) (s : State) : Host.Outcome State Fault Refusal :=
  .next (attempt s k (· == 0x31) chkCalLoadSet
    (fun t sl => owe t k [(t.ecyc + (if fld (pw sl 0) 31 24 = 1 then 88 else 32), .calLoad)] []))

/-- A POWER set in force for a port, and an OFS set, from either source (R309, R311, R314). -/
def loadPower (s : State) (p : Port) (tset source : Nat) (codes : List (BitVec 16)) : State :=
  applyIfIdle { s with power := mput s.power (p.val * 8 + tset) { source := source, codes := codes } } (quadOf p)
def loadOfs (s : State) (p : Port) (phase gain txofs : Nat) : State :=
  let s := s.setReg (aPort p 0x36) (put 0 16 phase ||| put 16 16 gain)
  let s := if fieldIsOn s (quadOf p) then s else s.apply1 (aPort p 0x36)
  applyIfIdle (s.setRegFld (aPort p 0x37) 27 16 txofs) (quadOf p)

/-- CAL_LOAD_SET's effect (R309, R311). -/
def calLoad (s : State) (sl : Slot) : State :=
  let w := pw sl 0
  let p : Port := ⟨fld w 19 16 % 16, by omega⟩
  if fld w 31 24 = 1 then loadPower s p (fld w 10 8) 2 (loadCodes sl)
  else loadOfs { s with ofsHost := s.ofsHost ||| BitVec.ofNat 16 (2 ^ p.val) } p
    (fld (pw sl 1) 31 16) (fld (pw sl 1) 15 0) (fld (pw sl 2) 31 16)

/-- The dispatch checks of CAL_READ beyond the opcode and the TAG (R368). A NOMINAL read names no port, so a PORT above the
variant's last is a PORT that is not 0: BAD_PARAM by R387, and not ABSENT (DESIGN CHOICE, log entry 82). -/
def chkCalRead (t : State) (sl : Slot) : List Chk :=
  let w := pw sl 0
  let kind := fld w 31 24
  [lengthIf sl 1, absentIf (!portPresent t ⟨fld w 19 16 % 16, by omega⟩ && kind != 4) 1,
   paramIf (decide (kind = 0 ∨ 4 < kind) || fld w 23 20 != 0 || fld w 15 11 != 0 || fld w 7 0 != 0 ||
     decide (4 < fld w 10 8) || ((kind == 2 || kind == 3) && fld w 10 8 != 0) ||
     (kind == 4 && fld w 19 16 != 0)) 1]

/-- CAL_READ (R312, R387). -/
def execCalRead (k : Stamp) (s : State) : Host.Outcome State Fault Refusal :=
  .next (attempt s k (· == 0x32) chkCalRead
    (fun t sl =>
      let w := pw sl 0
      let kind := fld w 31 24
      let p : Port := ⟨fld w 19 16 % 16, by omega⟩
      let set := fld w 10 8
      let o := t.reg (aPort p 0x36)
      let src := match mfind t.power (p.val * 8 + set) with | some x => x.source | none => 0
      let body : List Word :=
        if kind = 1 then
          put 0 2 src :: packHalves 64 ((List.range 128).map (fun i => BitVec.ofNat 16 (codeOf t p set i)))
        else if kind = 2 then
          [put 16 16 (fld o 15 0) ||| put 0 16 (fld o 31 16), put 16 12 (fld (t.reg (aPort p 0x37)) 27 16)]
        else if kind = 3 then peekBlock t sl.port [aPort p 0x33, aPort p 0x34, aPort p 0x35, aPort p 0x0A, aPort p 0x38,
          aPort p 0x32]
        else packHalves 64 ((List.range 128).map (fun i => Config.nominalCode set i))
      owe t k [(t.ecyc + (if kind = 1 ∨ kind = 4 then 88 else 32), .none)] body))

end Sys2Proof.Machine
end

