-- ==== Sys2Proof/Machine/Memory.lean ====
section
/-! DEFINITION. The memory port (R443 to R453, R463): the bus and its requests, line fills and the prefetch buffer, the
engines that read the XIP window, MP_XFER and MP_MAP. Requests carry the E-cycle they arose in, so grants and ends fall in
the E-cycles the rules give, whenever their rows run. -/

namespace Sys2Proof.Machine

/-- MP_XIP_CFG (R463). -/
def aXipCfg : Nat := 0x1803

/-- Fields of the map in force (R453). -/
def xipOn (s : State) : Bool := bitAt (s.reg aXipCfg) 0
def xipCs (s : State) : Bool := bitAt (s.reg aXipCfg) 1
def xipCont (s : State) : Bool := bitAt (s.reg aXipCfg) 2
def xipDummy (s : State) : Nat := fld (s.reg aXipCfg) 7 4

/-- CONT_ACTIVE (R451). -/
def contActive (s : State) : Bool := bitAt (s.reg aMpStat) 4

/-- A window offset (R448). -/
def winOff (a : Nat) : Nat := a % 2 ^ 24

/-- The line a window offset lies in (R449). -/
def lineOf (a : Nat) : Nat := winOff a / 64 * 64

/-- Bits of a line fill (R449, R451). -/
def fillBits (s : State) : Nat := (if contActive s then 0 else 8) + 24 + xipDummy s + 512

/-- LEN of an MP_XFER's payload (R400). -/
def xferLen (sl : Slot) : Nat := fld (pw sl 0) 12 0

/-- The bits a request sends (R444, R446, R449, R451); MP_MAP sends none. -/
def reqBits (s : State) : BusReq → Nat
  | .xfer k => match findSlot s k with | some sl => xferLen sl | none => 0
  | .map _ => 0
  | .exit _ => 32
  | .demand _ => fillBits s
  | .spec _ => fillBits s

/-- A request is a transfer of bits: all but MP_MAP's hold of the bus. -/
def sendsBits : BusReq → Bool
  | .map _ => false
  | _ => true

/-- The bits a line fill drives: RDCMD unless continuous read is active, the flash address of the line, and with CONT = 1
MODE; MP_MOSI is high for the rest (R449, R451). -/
def fillSent (s : State) (a : Nat) : List Bool :=
  (if contActive s then [] else bitsMsb 8 (fld (s.reg aXipCfg) 15 8)) ++ bitsMsb 24 ((fld (s.reg 0x1804) 23 0 + a) % 2 ^ 24) ++
    (if xipCont s then bitsMsb 8 (fld (s.reg aXipCfg) 23 16) else [])

/-- The bits a request drives on MP_MOSI (R446, R449, R451). -/
def sentBits (s : State) : BusReq → List Bool
  | .xfer k => match findSlot s k with | some sl => (wordsBits (sl.payload.drop 1)).take (xferLen sl) | none => []
  | .map _ => []
  | .exit _ => List.replicate 32 true
  | .demand a => fillSent s a
  | .spec a => fillSent s a

/-- The chip select of a request: MCS1n, or MCS0n (R443, R448). -/
def reqCs (s : State) : BusReq → Bool
  | .xfer k => match findSlot s k with | some sl => bitAt (pw sl 0) 31 | none => false
  | .exit c => c
  | _ => xipCs s

/-- E-cycles the transfer in progress has been stretched by so far (R445). -/
def stretched (s : State) : Nat := s.mp.stretch + (match s.mp.low with | some b => s.ecyc - b | none => 0)

/-- The E-cycle in which what owns the bus leaves it: MCSn rises (R444, R445), or MP_MAP completes (R453). -/
def busEnd (s : State) (r : BusReq) : Nat :=
  if sendsBits r then s.mp.grantAt + 24 + 4 * fld (s.reg 0x1801) 13 0 + stretched s else s.mp.grantAt + 24

/-- Rank among requests of one E-cycle (R447). -/
def reqRank : BusReq → Nat
  | .xfer _ => 0
  | .map _ => 0
  | .exit _ => 1
  | .demand _ => 2
  | .spec _ => 3

/-- A speculative fill. -/
def isSpec : BusReq → Bool
  | .spec _ => true
  | _ => false

/-- One request goes before another (R447); equal ones keep their order. -/
def goesBefore (a b : BusReq × Nat) : Bool :=
  decide (a.2 < b.2 ∨ (a.2 = b.2 ∧ reqRank a.1 ≤ reqRank b.1))

/-- The request that is granted next (R447). -/
def nextReq : List (BusReq × Nat) → Option (BusReq × Nat)
  | [] => none
  | r :: t => match nextReq t with
    | none => some r
    | some u => if goesBefore r u then some r else some u

/-- A command whose W ends: what it waited for and what it owes (R446, R453). -/
def endWait (s : State) (k : Word) (w : Nat) (effs : List (Nat × Effect)) (body : List Word) : State :=
  updSlot s k (fun x => if x.phase = .executing then
    { x with waits := .nothing, waitE := x.waitE + w, effs := effs, body := body } else x)

/-- The bus is granted to a request in E-cycle `g` (R444, R446). -/
def grantTo (s : State) (r : BusReq) (g : Nat) : State :=
  let s := { s with mp := { s.mp with
    owner := some r, grantAt := g, sent := sentBits s r, stretch := 0, low := none, ignore := false, dropped := none } }
  let s := if sendsBits r then s.setReg 0x1801 (put 0 14 (reqBits s r)) else s
  match r with
  | .map k => match findSlot s k with
    | some sl => endWait s k (g - sl.dispAt) [(g + 24, .mpMap)] []
    | none => s
  | _ => s

/-- An exit sequence must go before a request (R451). -/
def needsExit (s : State) : BusReq → Bool
  | .xfer k => contActive s && (match findSlot s k with | some sl => bitAt (pw sl 0) 31 == xipCs s | none => false)
  | .map _ => contActive s
  | _ => false

/-- A free bus is granted to the next request by E-cycle `e`; a speculative fill that meets another request does not start
(R447, R450, R451). -/
def grantBy (s : State) (e : Nat) : State :=
  if s.mp.owner.isSome then s
  else
    let rs := s.mp.waiting.filter (fun r => !isSpec r.1 || s.mp.waiting.all (fun u => u == r || decide (max r.2 s.mp.freeAt < u.2)))
    match nextReq rs with
    | none => { s with mp := { s.mp with waiting := rs } }
    | some r =>
      let g := max r.2 s.mp.freeAt
      if e < g then s
      else if needsExit s r.1 then grantTo { s with mp := { s.mp with waiting := rs } } (.exit (xipCs s)) g
      else grantTo { s with mp := { s.mp with waiting := rs.erase r } } r.1 g

/-- MP_BUS_GRANT (R447). -/
def execMpBusGrant (s : State) : Host.Outcome State Fault Refusal := .next (grantBy s s.ecyc)

/-- A line is held (R449). -/
def heldLine (s : State) (a : Nat) : Option Line := s.mp.lines.find? (fun l => l.addr == lineOf a)

/-- A line is under fill or asked for already. -/
def lineComing (s : State) (a : Nat) : Bool :=
  let same (r : BusReq) : Bool := match r with
    | .demand l => l == lineOf a
    | .spec l => l == lineOf a
    | _ => false
  (match s.mp.owner with | some r => same r | none => false) || s.mp.waiting.any (fun r => same r.1)

/-- A speculative fill that was to start for a line a read wants is the read's own demand (R450). -/
def claimSpec (s : State) (a : Nat) : State :=
  { s with mp := { s.mp with
    waiting := s.mp.waiting.map (fun r => if r.1 = .spec (lineOf a) then (.demand (lineOf a), r.2) else r) } }

/-- A demand fill of the line of a window offset is requested in E-cycle `t` where the line is neither held nor coming
(R449, R450). -/
def demandLine (s : State) (a t : Nat) : State :=
  if (heldLine s a).isSome then s
  else if lineComing s a then claimSpec s a
  else
    let s := grantBy s (t - 1)
    { s with mp := { s.mp with waiting := s.mp.waiting ++ [(.demand (lineOf a), t)] } }

/-- The engines and what each reads next, with the length of its read: whole lines for the boot and patch loaders, words
for the table loader (R448, R449; log entry 31). -/
def engineOf (s : State) : Engine → EngSt
  | .boot => s.mp.boot
  | .table => s.mp.table
  | .patch => s.mp.patch

/-- An engine changed. -/
def setEngine (s : State) (e : Engine) (g : EngSt) : State :=
  match e with
  | .boot => { s with mp := { s.mp with boot := g } }
  | .table => { s with mp := { s.mp with table := g } }
  | .patch => { s with mp := { s.mp with patch := g } }

/-- Big-endian fields of flash bytes. -/
def byteAt (bs : List Byte) (i : Nat) : Nat := (bs.getD i 0xFF).toNat
def u16At (bs : List Byte) (i : Nat) : Nat := byteAt bs i * 256 + byteAt bs (i + 1)
def u32At (bs : List Byte) (i : Nat) : Nat := u16At bs i * 65536 + u16At bs (i + 2)

/-- ID_REV.ROM (R413). -/
def romRev : Nat := 0x01

/-- The field tests of a patch image, over its first 12 bytes (R474, R482). -/
def imageHeadOk (bs : List Byte) : Bool :=
  u16At bs 0 == 0x7A7C && byteAt bs 2 == 0x10 && byteAt bs 3 == 0x01 && byteAt bs 4 == romRev && byteAt bs 5 == 0 &&
    decide (1 ≤ u16At bs 6 ∧ u16At bs 6 ≤ 8192) && u16At bs 10 == 0

/-- The bytes a loader of an image reads: all of it, or 12 where its field tests fail; 0 while they are not read yet. -/
def imageWant (bs : List Byte) : Nat :=
  if bs.length < 12 then 0 else if imageHeadOk bs then 16 + 4 * u16At bs 6 else 12

/-- What an image loader wants, as far as the bytes it has tell. -/
def wantOf (g : EngSt) (bs : List Byte) : Nat := if g.want = 0 then imageWant bs else g.want

/-- The bytes of the line of a window offset, and the E-cycle they are there in for a read that began in `t`: a disabled
window reads as erased flash (R448, R449). -/
def lineBytes (s : State) (a t : Nat) : Option (List Byte × Nat) :=
  if !xipOn s then some (List.replicate 64 0xFF, t)
  else (heldLine s a).map (fun l => (l.data, max t l.validAt))

/-- A read makes its line the most recently used one (R449). -/
def useLine (s : State) (a : Nat) : State :=
  match heldLine s a with
  | some l => { s with mp := { s.mp with lines := s.mp.lines.filter (fun x => x.addr != l.addr) ++ [l] } }
  | none => s

/-- The window offsets whose lines an engine's next read needs. -/
def needsOf (e : Engine) (g : EngSt) : List Nat := if e = .table then [g.addr, g.addr + 3] else [g.addr]

/-- An engine has no further read to ask for: the table loader has one under way, an image loader all it wants. -/
def engineFull (e : Engine) (g : EngSt) : Bool :=
  let bs := g.bytes ++ (g.hits.map (·.data)).flatten
  !g.on || (if e = .table then !g.hits.isEmpty else decide (wantOf g bs ≠ 0 ∧ wantOf g bs ≤ bs.length))

/-- What an engine's next read gives and the E-cycle its lines are all there in: four bytes for the table loader, the rest of
a line for the loaders of an image (R448, R449; log entry 31). -/
def nextRead (s : State) (e : Engine) (g : EngSt) : Option XipHit :=
  match lineBytes s g.addr g.from_, lineBytes s (g.addr + 3) g.from_ with
  | some (a, ta), some (b, tb) =>
    let byte (i : Nat) : Byte := (if lineOf (g.addr + i) = lineOf g.addr then a else b).getD ((g.addr + i) % 64) 0xFF
    if e = .table then some { addr := g.addr, data := [byte 0, byte 1, byte 2, byte 3], at_ := max ta tb }
    else some { addr := g.addr, data := a.drop (g.addr % 64), at_ := ta }
  | some (a, ta), none =>
    if e = .table then none else some { addr := g.addr, data := a.drop (g.addr % 64), at_ := ta }
  | none, _ => none

/-- The cursor past a read. -/
def pastRead (e : Engine) (a : Nat) : Nat := if e = .table then a + 4 else winOff (lineOf a + 64)

/-- An engine's next read takes its bytes where its lines are held (R449). -/
def takeRead (s : State) (e : Engine) : State :=
  let g := engineOf s e
  if engineFull e g then s
  else match nextRead s e g with
    | some h =>
      setEngine (each (needsOf e g) (fun a u => useLine u a) s) e
        { g with addr := pastRead e g.addr, hits := g.hits ++ [h], from_ := h.at_, off := 0 }
    | none => s

/-- An engine in E-cycle `t`: its reads take what is held, and it asks for what the next one lacks. An image loader asks for a
line in the E-cycle in which the line before is there (R448, R449, R471; log entry 31). -/
def engineAsk (s : State) (e : Engine) (t : Nat) : State :=
  let g := engineOf s e
  let s := setEngine s e { g with from_ := max g.from_ t }
  let s := each [0, 1, 2, 3, 4] (fun _ u => takeRead u e) s
  let g := engineOf s e
  if !engineFull e g && xipOn s then each (needsOf e g) (fun a u => demandLine u a g.from_) s else s

/-- Every engine in an E-cycle `t` in which lines came or went. -/
def engineAskAll (s : State) (t : Nat) : State :=
  each [Engine.boot, .table, .patch] (fun e u => if engineFull e (engineOf u e) then u else engineAsk u e t) s

/-- An engine starts to read at a window offset in E-cycle `t`. -/
def engineStart (s : State) (e : Engine) (a want t : Nat) : State :=
  engineAsk (setEngine s e { on := true, addr := winOff a, hits := [], bytes := [], want := want, from_ := t, off := 0 }) e t

/-- MP_XFER or MP_MAP asks for the bus in E-cycle `t`: a speculative fill in progress is abandoned (R447). -/
def commandAsk (s : State) (r : BusReq) (t : Nat) : State :=
  let s := grantBy s (t - 1)
  let add (u : State) : State := { u with mp := { u.mp with waiting := u.mp.waiting ++ [(r, t)] } }
  match s.mp.owner with
  | some (.spec _) =>
    if t < busEnd s (.spec 0) then
      let u := { s with mp := { s.mp with
        owner := none, low := none, freeAt := t + (Config.abandonRise s.free).val,
        dropped := s.mp.owner.filter (fun _ => decide (s.mp.grantAt + 16 ≤ t)) } }
      engineAskAll (bump (add u).spend 0x1807) t
    else add s
  | _ => add s

/-- An engine's reads that arrive in an E-cycle in which all lines are invalidated miss (R452). -/
def missAt (t : Nat) (g : EngSt) : EngSt :=
  let keep := g.hits.takeWhile (fun h => h.at_ != t)
  { g with hits := keep, addr := match g.hits.drop keep.length with | h :: _ => h.addr | [] => g.addr }

/-- All four lines are invalidated in E-cycle `t` (R452). -/
def invalidate (s : State) (t : Nat) : State :=
  engineAskAll { s with mp := { s.mp with
    lines := [], boot := missAt t s.mp.boot, table := missAt t s.mp.table, patch := missAt t s.mp.patch } } t

/-- The bits of a transfer as MP_MISO gave them, with 1 where nothing was driven (R446). -/
def misoBits (n : Nat) (miso : List Word) : List Bool :=
  let b := (wordsBits miso).take n
  b ++ List.replicate (n - b.length) true

/-- The bus is free from E-cycle `t`. -/
def freeBus (s : State) (t : Nat) : State := { s with mp := { s.mp with owner := none, freeAt := t } }

/-- MP_XFER's transfer ends: W, the reply's words, and its completion 8 E-cycles later (R446). -/
def xferEnd (s : State) (k : Word) (e : Nat) (miso : List Word) : State :=
  match findSlot s k with
  | none => s
  | some sl =>
    let ws := packBits 253 (misoBits (xferLen sl) miso)
    let s := endWait s k (s.mp.grantAt - sl.dispAt + s.mp.stretch) [(e + 8, .mpDone)]
      (if ws.length ≤ 249 then ws else ws.drop 249)
    if ws.length ≤ 249 then s else updSlot s k (fun x => { x with early := [ws.take 249] })

/-- MP_TRANSFER_END: an MP_XFER's transfer or an exit sequence ends (R444, R446, R451). -/
def execMpTransferEnd (miso : List Word) (s : State) : Host.Outcome State Fault Refusal :=
  .next (match s.mp.owner with
    | some (.xfer k) =>
      let e := busEnd s (.xfer k)
      if e ≤ s.ecyc then freeBus (xferEnd s k e miso) e else s
    | some (.exit c) =>
      let e := busEnd s (.exit c)
      if e ≤ s.ecyc then freeBus (s.setRegBit aMpStat 4 false) e else s
    | _ => s)

/-- The line number a fill takes: the lowest free one, or the least recently used line's (R449). -/
def lineIdx (ls : List Line) : Nat :=
  match [0, 1, 2, 3].find? (fun i => ls.all (fun l => l.idx != i)) with
  | some i => i
  | none => (ls.head?.map (·.idx)).getD 0

/-- A fill's bytes enter the buffer in E-cycle `e`; bits nothing drove read 1 (R446, R449). -/
def takeLine (ls : List Line) (a : Nat) (data : List Byte) (e : Nat) : List Line :=
  let d := data.take 64
  (if 4 ≤ ls.length then ls.drop 1 else ls) ++
    [{ idx := lineIdx ls, addr := a, data := d ++ List.replicate (64 - d.length) 0xFF, validAt := e }]

/-- A line fill ends in E-cycle `e`, and the reads that wait for the line go on (R449 to R451). -/
def fillEnd (s : State) (a : Nat) (data : List Byte) (e : Nat) : State :=
  let s := freeBus s e
  let s := if xipCont s then s.setRegBit aMpStat 4 true else s
  engineAskAll (bump { s with mp := { s.mp with lines := takeLine s.mp.lines a data e } } 0x1806) e

/-- The speculative fill that a demand fill's end starts (R450); the header's starts none (log entry 32). -/
def startSpec (s : State) (a e : Nat) : State :=
  if s.boot.stage != .header && decide (a + 64 < 2 ^ 24) && (heldLine s (a + 64)).isNone && s.mp.waiting.isEmpty then
    { s with mp := { s.mp with waiting := [(.spec (a + 64), e)] } }
  else s

/-- LINE_FILL_END (R449 to R451). -/
def execLineFillEnd (data : List Byte) (s : State) : Host.Outcome State Fault Refusal :=
  .next (match s.mp.owner with
    | some (.demand a) =>
      let e := busEnd s (.demand a)
      if e ≤ s.ecyc then startSpec (fillEnd s a data e) a e else s
    | some (.spec a) =>
      let e := busEnd s (.spec a)
      if e ≤ s.ecyc then fillEnd s a data e else s
    | _ => s)

/-- MREADY is honoured for the transfer in progress (R445). -/
def stretchable (s : State) : Bool :=
  bitAt (s.reg 0x1800) 0 && !s.mp.ignore && (match s.mp.owner with | some r => sendsBits r | none => false)

/-- A byte boundary of the transfer in progress falls in E-cycle `t`: bit 8k would be driven in it (R445). -/
def byteBoundary (s : State) (t : Nat) : Bool :=
  let b := s.mp.grantAt + 16 + s.mp.stretch
  decide (b ≤ t ∧ (t - b) % 32 = 0 ∧ (t - b) / 4 < fld (s.reg 0x1801) 13 0)

/-- MREADY held the bus from `b` to `e`: the watchdogs of what waited for the bus or its fills have not counted that (R479).
-/
def stretchOver (s : State) (b e : Nat) : State :=
  let s := { s with mp := { s.mp with table := { s.mp.table with off := s.mp.table.off + (e - max b s.mp.table.from_) } } }
  each (s.car.slots.filter (fun x => x.phase == .executing && (x.waits == .bus || x.waits == .fills))) (fun x t =>
    updSlot t x.stamp (fun y => { y with offWatch := y.offWatch + (e - max b (y.heldAt.getD y.dispAt)) })) s

/-- MREADY_RESUME: the port samples MREADY. Low at a byte boundary, it begins a stretch; high after low samples, it ends it
(R445; log entry 87). -/
def execMreadyResume (high : Bool) (s : State) : Host.Outcome State Fault Refusal :=
  .next (match s.mp.low with
    | some b =>
      if high && decide (b < s.ecyc ∧ s.ecyc < b + 24576) then
        stretchOver { s with mp := { s.mp with stretch := s.mp.stretch + (s.ecyc - b), low := none } } b s.ecyc
      else s
    | none =>
      if !high && stretchable s && byteBoundary s s.ecyc then { s with mp := { s.mp with low := some s.ecyc } } else s)

/-- MREADY_TIMEOUT: 24,576 low samples at one boundary (R445). -/
def execMreadyTimeout (s : State) : Host.Outcome State Fault Refusal :=
  .next (match s.mp.low with
    | some b =>
      if b + 24576 ≤ s.ecyc then
        let s := { s with mp := { s.mp with stretch := s.mp.stretch + 24576, low := none, ignore := true } }
        bump ((stretchOver s b (b + 24576)).setRegBit aMpStat 9 true) 0x1808
      else s
    | none => s)

/-- E-cycles since bit 0 of the transfer in progress was driven, stretches taken out (R444, R445). -/
def busClocked (s : State) : Nat := s.ecyc - (s.mp.grantAt + 16 + stretched s)

/-- The request whose bits are on the bus: its MCSn is low (R444). An abandoned fill's still is until the bus is free
(R447). -/
def onBus (s : State) : Option BusReq :=
  match s.mp.owner with
  | some r => if sendsBits r && decide (s.mp.grantAt + 16 ≤ s.ecyc ∧ s.ecyc < busEnd s r) then some r else none
  | none => s.mp.dropped.filter (fun _ => decide (s.ecyc < s.mp.freeAt))

/-- MCSn of a chip select is high (R443, R444). -/
def mcsHigh (s : State) (cs : Bool) : Bool := match onBus s with | some r => reqCs s r != cs | none => true

/-- MSCK is high: from E-cycle 18 + 4i to E-cycle 20 + 4i of bit i (R444). -/
def msckHigh (s : State) : Bool :=
  (onBus s).isSome && decide (s.mp.grantAt + 16 + stretched s ≤ s.ecyc ∧ 2 ≤ busClocked s % 4 ∧
    busClocked s / 4 < fld (s.reg 0x1801) 13 0)

/-- MP_MOSI is high: bit i from E-cycle 16 + 4i on, the last one until MCSn rises, high while the bus is idle (R443, R444). -/
def mosiHigh (s : State) : Bool :=
  match onBus s with
  | some _ => s.mp.sent.getD (min (busClocked s / 4) (fld (s.reg 0x1801) 13 0 - 1)) true
  | none => true

/-- The dispatch checks of MP_XFER beyond the opcode and the TAG (R368). -/
def chkMpXfer (_ : State) (sl : Slot) : List Chk :=
  [lengthIn sl (1 + (xferLen sl + 31) / 32) 1 254,
   paramIf (fld (pw sl 0) 30 13 != 0 || decide (xferLen sl = 0 ∨ 8096 < xferLen sl)) 1]

/-- MP_XFER (R446, R447, R451). -/
def execMpXfer (k : Stamp) (s : State) : Host.Outcome State Fault Refusal :=
  .next (attempt s k (· == 0x80) chkMpXfer
    (fun t _ =>
      commandAsk (updSlot t k (fun x => { x with waits := .bus, hasWait := true })) (.xfer k) t.ecyc))

/-- MP_XFER completes: on the window's chip select the lines are invalidated (R452). -/
def mpDone (s : State) (sl : Slot) (e : Nat) : State :=
  if bitAt (pw sl 0) 31 == xipCs s then invalidate s e else s

/-- A map's own tests (R453): `map` as MP_MAP's word 0, `base` as its word 1. -/
def mapBad (map : Word) : Bool := bitAt map 2 && decide (fld map 7 4 < 8)
def baseBad (base : Word) : Bool := fld base 5 0 != 0

/-- The dispatch checks of MP_MAP beyond the opcode and the TAG (R368). -/
def chkMpMap (_ : State) (sl : Slot) : List Chk :=
  [lengthIf sl 2, paramIf (fld (pw sl 0) 31 16 != 0 || bitAt (pw sl 0) 3 || mapBad (pw sl 0)) 1,
   paramIf (fld (pw sl 1) 31 24 != 0 || baseBad (pw sl 1)) 2]

/-- MP_MAP (R453). -/
def execMpMap (k : Stamp) (s : State) : Host.Outcome State Fault Refusal :=
  .next (attempt s k (· == 0x81) chkMpMap
    (fun t _ =>
      commandAsk (updSlot t k (fun x => { x with waits := .bus, hasWait := true })) (.map k) t.ecyc))

/-- The load of the calibration table stops; JNL_BOOT.TABLE tells how (R477). -/
def stopTable (s : State) (code : Nat) : State :=
  (setEngine s .table .reset).setRegFld aJnlBoot 9 8 code

/-- MP_MAP's map takes effect, its lines are invalidated, and a table load in progress is cut (R452, R453, R477). -/
def mpMap (s : State) (sl : Slot) (e : Nat) : State :=
  let s := s.setReg aXipCfg (put 16 8 (fld (s.reg 0x1805) 7 0) ||| (pw sl 0 &&& 0x0000FFF7))
  let s := s.setReg 0x1804 (pw sl 1)
  let s := if s.mp.table.on then stopTable s 2 else s
  let s := match s.mp.owner with
    | some (.map _) => freeBus s e
    | _ => s
  invalidate s e

end Sys2Proof.Machine
end

