-- ==== Sys2Proof/Machine/Patch.lean ====
section
/-! DEFINITION. The engines that read the XIP window and what they load: patch images (R481 to R484, R402), and the
calibration table (R313, R314, R477). -/

namespace Sys2Proof.Machine

/-- The image that bytes hold, if it passes every test and its CHECK (R482). -/
def imageOf (bs : List Byte) : Option Image :=
  let n := 4 * u16At bs 6
  if imageHeadOk bs && decide (16 + n ≤ bs.length) && crc32 (bytesBits (bs.take (12 + n))) == u32At bs (12 + n) then
    some { ident := BitVec.ofNat 16 (u16At bs 8), len := u16At bs 6, body := (bs.drop 12).take n }
  else none

/-- An image loader has what it wants. -/
def loaderDone (g : EngSt) : Bool := decide (g.want ≠ 0 ∧ g.want ≤ g.bytes.length)

/-- PATCH_LOAD has read its image in E-cycle `t`: W ends, and it completes at dispatch + 88 + W (R483). -/
def patchRead (s : State) (t : Nat) : State :=
  match s.patch.loader.bind (findSlot s) with
  | some sl => endWait s sl.stamp (t - sl.dispAt) [(t + 88, .patchDone)] []
  | none => s

/-- An image loader's first read that completes gives it its bytes (R449). -/
def takeHit (g : EngSt) (h : XipHit) : EngSt :=
  let bs := g.bytes ++ h.data
  { g with hits := g.hits.drop 1, bytes := bs, want := wantOf g bs }

/-- A read of a patch image completes, for PATCH_LOAD or for the boot: 6 E-cycles after its line is there; what counts as
the end of the image is the end of its last fill (R449, R471, R474, R483). -/
def imageRead (s : State) (e : Engine) : State :=
  match (engineOf s e).hits with
  | h :: _ =>
    if h.at_ + 6 ≤ s.ecyc then
      let n := takeHit (engineOf s e) h
      let s := setEngine s e n
      let s := if e = .boot then { s with boot := { s.boot with lines := s.boot.lines + 1 } } else s
      if !loaderDone n then s
      else if e = .boot then { s with boot := { s.boot with dueAt := h.at_ + 64 } }
      else patchRead s h.at_
    else s
  | [] => s

/-- The tests of a calibration record (R311, R313, R314). -/
def recordOk (bs : List Byte) : Bool :=
  let len := u16At bs 6
  let kind := byteAt bs 2
  let codes := (List.range 128).map (fun i => BitVec.ofNat 16 (u16At bs (8 + 2 * i)))
  crc32 (bytesBits (bs.take (8 + len))) == u32At bs (8 + len) && decide (byteAt bs 3 ≤ 15) && byteAt bs 5 == 1 &&
    ((kind == 1 && decide (byteAt bs 4 ≤ 4) && len == 256 && (powerSetBad (byteAt bs 4) codes).isNone) ||
      (kind == 2 && byteAt bs 4 == 0xFF && len == 8 && decide (u16At bs 12 < 4096) && u16At bs 14 == 0))

/-- NO_TABLE (R314). -/
def noTable (s : State) : State := s.setRegBit 0x0161 0 true

/-- A valid record is applied, unless its port is absent or a host has loaded its set (R314, R477). -/
def applyRecord (s : State) (bs : List Byte) : State :=
  let p : Port := ⟨byteAt bs 3 % 16, by omega⟩
  if !portPresent s p then s
  else if byteAt bs 2 = 1 then
    match mfind s.power (p.val * 8 + byteAt bs 4) with
    | some { source := 2, .. } => s
    | _ => loadPower s p (byteAt bs 4) 1 ((List.range 128).map (fun i => BitVec.ofNat 16 (u16At bs (8 + 2 * i))))
  else if s.ofsHost.getLsbD p.val then s
  else loadOfs s p (u16At bs 8) (u16At bs 10) (u16At bs 12)

/-- A whole record has been read: applied or skipped and counted (R314). -/
def takeRecord (s : State) (bs : List Byte) : State :=
  if recordOk bs then applyRecord s bs
  else
    let s := bump s 0x0163
    if s.mp.records = 0 then noTable s else s

/-- The bytes a record takes: whole words, by its LEN (R313). -/
def recordSize (bs : List Byte) : Nat := (12 + u16At bs 6 + 3) / 4 * 4

/-- The table ends; one whose first record is missing is no table (R313, R314). -/
def endTable (s : State) : State := stopTable (if s.mp.records = 0 then noTable s else s) 1

/-- The table loader goes on from E-cycle `t` with what it has read (R313, R314, R477). -/
def tableNext (s : State) (g : EngSt) (t : Nat) : State :=
  let go (u : State) (g : EngSt) : State :=
    if 2 ^ 24 < g.addr + 4 then endTable u else engineAsk (setEngine u .table g) .table t
  if g.want = 8 ∧ g.bytes.length = 8 then
    (if u16At g.bytes 0 = 0xCA5E then go s { g with want := recordSize g.bytes } else endTable s)
  else if g.want ≤ g.bytes.length then
    let s := takeRecord s g.bytes
    let s := { s with mp := { s.mp with records := s.mp.records + 1 } }
    if s.mp.records = 512 then stopTable s 1 else go s { g with bytes := [], want := 8 }
  else go s g

/-- One 4-byte read of the table loader completes, 6 E-cycles after its bytes are there (R449, R477). -/
def tableRead (s : State) : State :=
  let g := s.mp.table
  match g.hits with
  | h :: _ =>
    if h.at_ + 6 ≤ s.ecyc then
      tableNext s { g with hits := [], bytes := g.bytes ++ h.data, from_ := h.at_ + 6 } (h.at_ + 6)
    else s
  | [] => s

/-- XIP_READ: an engine's read completes from a held line or after the fill it waited for (R448, R449). -/
def execXipRead (e : Engine) (s : State) : Host.Outcome State Fault Refusal :=
  .next (match e with
    | .boot => if s.boot.stage = .patch then imageRead s .boot else s
    | .patch => imageRead s .patch
    | .table => tableRead s)

/-- CAL_TABLE_LOAD: the table loader starts at READY + 1 (R477). -/
def execCalTableLoad (s : State) : Host.Outcome State Fault Refusal :=
  .next (match s.boot.tableOff with
    | some a =>
      if s.isReady && decide (s.boot.dueAt + 1 ≤ s.ecyc) then
        let s := { s with boot := { s.boot with tableOff := none }, mp := { s.mp with records := 0 } }
        engineStart s .table a 8 (s.boot.dueAt + 1)
      else s
    | none => s)

/-- The inactive bank holds this image from now on (R481). -/
def setInactive (s : State) (i : Option Image) : State :=
  if s.patch.active then { s with patch := { s.patch with bank0 := i } } else { s with patch := { s.patch with bank1 := i } }

/-- The dispatch checks of PATCH_LOAD beyond the opcode and the TAG (R368). -/
def chkPatchLoad (_ : State) (sl : Slot) : List Chk :=
  [lengthIf sl 1, paramIf (fld (pw sl 0) 31 24 != 0 || fld (pw sl 0) 1 0 != 0) 1]

/-- PATCH_LOAD (R340, R402, R483). -/
def execPatchLoad (k : Stamp) (s : State) : Host.Outcome State Fault Refusal :=
  .next (attempt s k (· == 0xA0) chkPatchLoad
    (fun t sl =>
      let t := setInactive t none
      let t := { t with patch := { t.patch with loader := some k } }
      let t := updSlot t k (fun x => { x with waits := .fills, hasWait := true })
      engineStart t .patch (fld (pw sl 0) 23 0 + 2 ^ 24 - fld (t.reg 0x1804) 23 0) 0 t.ecyc))

/-- PATCH_LOAD judges what it read and fills the bank, or refuses (R402, R483). -/
def patchDone (s : State) (k : Word) : State :=
  let i := imageOf s.mp.patch.bytes
  let s := setInactive (setEngine s .patch .reset) i
  let s := { s with patch := { s.patch with loader := none } }
  match i with
  | some x => updSlot s k (fun y => { y with body := [put 16 16 x.ident.toNat ||| put 0 14 x.len] })
  | none => setStatus s k stBadParam 1

/-- A quad is inside a round (R402). -/
def inAnyRound (s : State) : Bool :=
  ([0, 1, 2, 3] : List Quad).any (fun q => match s.quads[q].job with | some j => j.inRound | none => false)

/-- The dispatch checks of PATCH_SWAP beyond the opcode and the TAG (R368). -/
def chkPatchSwap (t : State) (sl : Slot) : List Chk :=
  [lengthIf sl 0, paramIf (bankImage t false).isNone 0]

/-- PATCH_SWAP: from dispatch the first frame of every new round is held (R402, R484). -/
def execPatchSwap (k : Stamp) (s : State) : Host.Outcome State Fault Refusal :=
  .next (attempt s k (· == 0xA1) chkPatchSwap
    (fun t _ =>
      let t := { t with patch := { t.patch with hold := some t.ecyc } }
      let t := updSlot t k (fun x => { x with hasWait := true })
      if inAnyRound t then holdFor t k .rounds else waitFor t k .rounds))

/-- PATCH_SWAP_EXECUTE: no quad is inside a round any more, and the swap takes the 64 E-cycles that follow (R402). -/
def execPatchSwapExecute (s : State) : Host.Outcome State Fault Refusal :=
  .next (match s.car.slots.find? (fun x => x.phase == .executing && x.waits == .rounds) with
    | some sl =>
      if inAnyRound s then s
      else
        let s := endHold s sl.stamp
        updSlot s sl.stamp (fun x => { x with waits := .nothing, effs := [(x.dispAt + x.waitE + 64, .swap)] })
    | none => s)

/-- The banks have swapped in E-cycle `t`; the rounds that were held start, and their hold joins WAIT_E (R372, R374,
R402, R484). -/
def swapBanks (s : State) (t : Nat) : State :=
  let d := s.patch.hold.getD t
  let s := { s with patch := { s.patch with active := !s.patch.active, hold := none } }
  each ([0, 1, 2, 3] : List Quad) (fun q u =>
    match u.quads[q].job, u.quads[q].next with
    | some j, some n =>
      if roundJob j && !j.inRound && decide (n.notBefore < t) then
        let u := updSlot u j.stamp (fun x => { x with waitE := x.waitE + (t - max d n.notBefore) })
        u.updQuad q (fun x => { x with next := some { n with notBefore := t } })
      else u
    | _, _ => u) s

end Sys2Proof.Machine
end

