-- ==== Sys2Proof/Machine/Journal.lean ====
section
/-! DEFINITION. The journal's commands and its row (R192, R214, R341, R401, R485 to R491). -/

namespace Sys2Proof.Machine

/-- COUNT and FIRST of JOURNAL_READ (R400). -/
def jnlCount (sl : Slot) : Nat := fld (pw sl 0) 14 8
def jnlFirst (sl : Slot) : Nat := fld (pw sl 0) 5 0

/-- A row's words; an unwritten one reads 0 (R400, R490). -/
def jnlWords (s : State) (r : Nat) : List Word :=
  match mfind s.fuse.rows r with
  | some x => rowWords x
  | none => [0, 0, 0, 0]

/-- The dispatch checks of JOURNAL_READ beyond the opcode and the TAG (R368). -/
def chkJournalRead (_ : State) (sl : Slot) : List Chk :=
  [lengthIf sl 1,
   paramIf (fld (pw sl 0) 31 15 != 0 || fld (pw sl 0) 7 6 != 0 ||
     decide (jnlCount sl = 0 ∨ 64 < jnlCount sl ∨ 64 < jnlFirst sl + jnlCount sl)) 1]

/-- JOURNAL_READ: a reply past 251 words is split at a record (R372, R373, R400). -/
def execJournalRead (k : Stamp) (s : State) : Host.Outcome State Fault Refusal :=
  .next (attempt s k (· == 0x90) chkJournalRead
    (fun t sl =>
      let rec_ (i : Nat) : List Word := jnlWords t (jnlFirst sl + i)
      let used : Word := put 0 7 (journalUsed t)
      let all := (List.range (jnlCount sl)).map rec_
      let t := owe t k [(t.ecyc + 8 + 4 * jnlCount sl, .none)]
        (if jnlCount sl ≤ 62 then used :: all.flatten else (all.drop 62).flatten)
      if jnlCount sl ≤ 62 then t else updSlot t k (fun x => { x with early := [used :: (all.take 62).flatten] })))

/-- INDEX and LEFT of a journalled command's reply (R400, R487). -/
def jnlReply (index left : Nat) : List Word := [put 0 7 index ||| put 8 4 (min 15 left)]

/-- The value in force of a setting (R341, R485). -/
def settingNow (s : State) (setting : Nat) : Word :=
  if setting = 1 then s.boot.region else if setting = 2 then s.boot.ceiling else put 0 2 s.boot.primary.val

/-- A journalled command that passed its checks: the first row of R487's table that applies. -/
def journalSet (s : State) (k : Word) (sl : Slot) (setting : Nat) : State :=
  let v := pw sl 0
  let left := leftOf s setting
  if v = settingNow s setting then owe s k [(s.ecyc + 8, .none)] (jnlReply 0x7F left)
  else if left = 0 ∨ 64 ≤ nextRow s then owe (setStatus s k stLimit 0) k [(s.ecyc + 8, .none)] (jnlReply 0x7F left)
  else
    let b := s.ecyc + 24
    waitFor { s with boot := { s.boot with
      prog := some
        { row := nextRow s, rec_ := journalRecord setting sl.port v (b / 160 % 2 ^ 56), beginAt := b, stamp := k } } } k .row

/-- The value tests of the three settings (R192, R214, R341). -/
def regionBad (v : Word) : Bool := decide (4000 < fld v 31 16 ∨ 4000 < fld v 15 0 ∨ fld v 31 16 < fld v 15 0)
def ceilingBad (v : Word) : Bool := decide (fld v 31 30 ≠ 0 ∨ 160 < fld v 29 20 ∨ 80 < fld v 19 10 ∨ 160 < fld v 9 0)
def roleBad (v : Word) : Bool := fld v 31 2 != 0

/-- The dispatch checks of REGION_SET beyond the opcode and the TAG (R368). -/
def chkRegionSet (_ : State) (sl : Slot) : List Chk :=
  [lengthIf sl 1, paramIf (regionBad (pw sl 0)) 1]

/-- REGION_SET (R192, R401, R487). -/
def execRegionSet (k : Stamp) (s : State) : Host.Outcome State Fault Refusal :=
  .next (attempt s k (· == 0x91) chkRegionSet
    (fun t sl => journalSet t k sl 1))

/-- The dispatch checks of CEILING_SET beyond the opcode and the TAG (R368). -/
def chkCeilingSet (_ : State) (sl : Slot) : List Chk :=
  [lengthIf sl 1, paramIf (ceilingBad (pw sl 0)) 1]

/-- CEILING_SET (R214, R401, R487). -/
def execCeilingSet (k : Stamp) (s : State) : Host.Outcome State Fault Refusal :=
  .next (attempt s k (· == 0x92) chkCeilingSet
    (fun t sl => journalSet t k sl 2))

/-- The dispatch checks of ROLE_SET beyond the opcode and the TAG (R368). -/
def chkRoleSet (_ : State) (sl : Slot) : List Chk :=
  [lengthIf sl 1, paramIf (roleBad (pw sl 0)) 1]

/-- ROLE_SET (R341, R401, R487). -/
def execRoleSet (k : Stamp) (s : State) : Host.Outcome State Fault Refusal :=
  .next (attempt s k (· == 0x93) chkRoleSet
    (fun t sl => journalSet t k sl 3))

/-- A new value of a setting takes effect, with what follows from it (R217, R341). -/
def settingTakes (s : State) (setting : Nat) (v : Word) : State :=
  if setting = 1 then judgePlan { s with boot := { s.boot with region := v } }
  else if setting = 2 then judgePlan { s with boot := { s.boot with ceiling := v } }
  else { s with boot := { s.boot with role := v, roleJournal := true, primary := four (fld v 1 0) } }

/-- The last E-cycle of a row's programming (R487). -/
def progEnd (p : Prog) : Nat := p.beginAt + 245760

/-- JOURNAL_ROW_COMPLETE: row, JNL_STAT, JNL_LEFT and value change together, as reads of this E-cycle by later stamps see them
(R408, R487, R491). -/
def execJournalRowComplete (s : State) : Host.Outcome State Fault Refusal :=
  .next (match s.boot.prog with
    | some p =>
      if progEnd p ≤ s.ecyc then
        let s := { s with fuse := { s.fuse with rows := mput s.fuse.rows p.row p.rec_ }, boot := { s.boot with prog := none } }
        let s := seenBy s (s.setRegFld 0x2400 29 24 p.row) true
        let s := endWait s p.stamp 0 [(progEnd p, .none)] (jnlReply p.row (leftOf s (rowSetting p.rec_)))
        settingTakes s (rowSetting p.rec_) p.rec_.w0
      else s
    | none => s)

end Sys2Proof.Machine
end

