-- ==== Sys2Proof/Machine/Supply.lean ====
section
/-! DEFINITION. The supplies and their monitors (R495, R497). Levels are in mV. -/

namespace Sys2Proof.Machine

/-- The level of VDD_IO its monitor trips below, and the one it releases at, by the range the I/O cells keep (R497). -/
def ioTrip : IoRange → Nat
  | .v1800 => 1600
  | .v3300 => 2970
def ioRelease : IoRange → Nat
  | .v1800 => 1710
  | .v3300 => 3135

/-- The range VDD_IO lies in, if it lies in one (R494). -/
def ioRangeOf (mv : Nat) : Option IoRange :=
  if 1710 ≤ mv ∧ mv ≤ 1890 then some .v1800 else if 3135 ≤ mv ∧ mv ≤ 3465 then some .v3300 else none

/-- The level a supply trips below; of VDD_IO the lower range's while no range is kept (R497). -/
def tripLevel (s : SupplySt) : Supply → Nat
  | .core => 740
  | .an => 1620
  | .drv => 2970
  | .io => ioTrip (s.range.getD .v1800)

/-- A supply's monitor at a new level: it trips below one level, and releases at another (R497). -/
def railTo (trip release : Nat) (r : Rail) (mv : Nat) : Rail :=
  { mv := mv, up := decide (trip ≤ mv) && (r.up || decide (release ≤ mv)) }

/-- The range the I/O cells keep at a new level of VDD_IO: the one they have until it falls below that monitor's threshold,
and the one it rises into (R495). -/
def rangeTo (s : SupplySt) (mv : Nat) : Option IoRange :=
  match s.range with
  | some r => if ioTrip r ≤ mv then some r else none
  | none => if s.io.mv < mv then ioRangeOf mv else none

/-- A supply at a new level (R495, R497). -/
def supplyTo (s : SupplySt) (x : Supply) (mv : Nat) : SupplySt :=
  match x with
  | .core => { s with core := railTo 740 776 s.core mv }
  | .an => { s with an := railTo 1620 1710 s.an mv }
  | .drv => { s with drv := railTo 2970 3135 s.drv mv }
  | .io =>
    let r := rangeTo s mv
    { s with range := r, io := match r with
      | some v => railTo (ioTrip v) (ioRelease v) { s.io with up := s.io.up && s.range == r } mv
      | none => { mv := mv, up := false } }

/-- Every supply has reached its release level: the power-on detector lets go (R467, R497). -/
def released (s : SupplySt) : Bool := s.core.up && s.an.up && s.drv.up && s.io.up

/-- An output ball at VDD_IO: driven while the I/O cells are configured, not at all with VDD_IO off (R495, R498). -/
def driven (s : State) (level : Bool) : Option Bool := if s.supply.range.isSome then some level else none

end Sys2Proof.Machine
end

