-- ==== Sys2Proof/Machine/Boot.lean ====
section
/-! DEFINITION. Full reset's causes and the boot (R46, R47, R50, R51, R339, R465 to R476, R488, R497). -/

namespace Sys2Proof.Machine

/-- POWER_ON: supplies come up to levels in mV, in full reset recorded as power-on (R419, R467, R496, R497). -/
def execPowerOn (core an drv io : Nat) (s : State) : Host.Outcome State Fault Refusal :=
  .next { enterReset s .powerOn 0 with
    supply := supplyTo (supplyTo (supplyTo (supplyTo s.supply .core core) .an an) .drv drv) .io io }

/-- A pulse the filter may let pass: the model's free choice (log entry 5). -/
def pulseResets (s : State) (c : Cause) : State :=
  if Config.shortPulseResets s.free then enterReset s c 0 else s.spend

/-- SUPPLY_TRIP: a supply stands at a level in mV for `ns` nanoseconds. Below its trip level for 1 µs or longer it resets the
device and stays there until it comes up again; a shorter dip is over, and either resets or is ignored; above the trip level
the device keeps running (R497; log entry 5). -/
def execSupplyTrip (x : Supply) (mv ns : Nat) (s : State) : Host.Outcome State Fault Refusal :=
  .next (if tripLevel s.supply x ≤ mv then { s with supply := supplyTo s.supply x mv }
    else if 1000 ≤ ns then { enterReset s .powerOn 0 with supply := supplyTo s.supply x mv }
    else if ns = 0 then s else pulseResets s .powerOn)

/-- RESETN: low for `ns` nanoseconds (R467). -/
def execResetn (ns : Nat) (s : State) : Host.Outcome State Fault Refusal :=
  .next (if 1000 ≤ ns then enterReset s .resetn 0 else if ns < 100 then s else pulseResets s .resetn)

/-- REFCLK_LOSS (R50). -/
def execRefclkLoss (s : State) : Host.Outcome State Fault Refusal := .next (enterReset s .refclk 0)

/-- RESET_RELEASE: the straps are sampled, once every supply has reached its release level (R339, R467, R470, R497). -/
def execResetRelease (bootSrc : Bool) (hrole : BitVec 2) (s : State) : Host.Outcome State Fault Refusal :=
  .next (if s.boot.stage = .held ∧ released s.supply = true then
    { s with boot := { s.boot with stage := .released, bootSrc := bootSrc, strap := hrole } }
  else s)

/-- ROOT_PLL_LOCK: the timebase starts, with the fuse load and the exit sequences on both chip selects (R51, R451,
R471). -/
def execRootPllLock (s : State) : Host.Outcome State Fault Refusal :=
  .next (if s.boot.stage = .released then
    { s with
      ecyc := 0, tb := { s.tb with run := true, now := 0, epoch := 0 }, boot := { s.boot with stage := .fuses },
      mp := { s.mp with waiting := [(.exit false, 0), (.exit true, 0)] } }
  else s)

/-- The factory transmit phases in every present port (R306, R471). -/
def loadTxph (s : State) : State :=
  each (allPorts.filter (portPresent s)) (fun p t =>
    match mfind t.fuse.txph p.val with
    | some v => (t.setRegFld (aPort p 0x37) 11 0 v.toNat).apply1 (aPort p 0x37)
    | none => t) s

/-- FUSE_LOAD: the journal gives region plan, ceiling and roles (R339, R341, R471, R488). -/
def execFuseLoad (s : State) : Host.Outcome State Fault Refusal :=
  .next (if s.boot.stage = .fuses ∧ 4096 ≤ s.ecyc then
    let role := journalValue s 3
    loadTxph { s with boot := { s.boot with
      stage := .scrub,
      region := (journalValue s 1).getD 0x0FA00000, ceiling := (journalValue s 2).getD 0, role := role.getD 0,
      roleJournal := role.isSome,
      primary := match role with | some v => four (fld v 1 0) | none => four s.boot.strap.toNat } }
  else s)

/-- The boot has nothing further to read: READY rises in E-cycle `t`. -/
def bootLast (s : State) (t : Nat) : State :=
  { s with boot := { s.boot with stage := .last, dueAt := t }, mp := { s.mp with boot := .reset } }

/-- SCRUB_COMPLETE: host boot raises READY; flash boot asks for the header line (R470, R471). -/
def execScrubComplete (s : State) : Host.Outcome State Fault Refusal :=
  .next (if s.boot.stage = .scrub ∧ 135168 ≤ s.ecyc then
    let s := { s with dir := { s.dir with entries := [] } }
    if s.boot.bootSrc then bootLast (noTable (s.setReg aJnlBoot (put 0 1 1 ||| put 1 2 3 ||| put 8 2 3))) 135168
    else engineStart { s with boot := { s.boot with stage := .header } } .boot 0 64 135168
  else s)

/-- A word of the header. -/
def hdrWord (bs : List Byte) (i : Nat) : Word := BitVec.ofNat 32 (u32At bs i)

/-- The header's MARK (R472). -/
def markOk (bs : List Byte) : Bool := u16At bs 0 == 0xB0C7

/-- A valid boot header (R472, R473). -/
def headerOk (bs : List Byte) : Bool :=
  let map := hdrWord bs 4
  markOk bs && byteAt bs 2 == 1 && byteAt bs 3 == 1 && crc32 (bytesBits (bs.take 60)) == u32At bs 60 &&
    fld map 31 24 == 0 && !bitAt map 3 && fld (hdrWord bs 8) 31 24 == 0 && fld (hdrWord bs 12) 31 24 == 0 &&
    fld (hdrWord bs 16) 31 24 == 0 && ((bs.drop 20).take 40).all (· == 0) && bitAt map 0 && !mapBad map &&
    !baseBad (hdrWord bs 8) && (fld (hdrWord bs 16) 23 0 == 0xFFFFFF || fld (hdrWord bs 16) 5 0 == 0)

/-- The header's map is in force: no exit sequence is sent, and no line of the earlier map stays (R471; log entry 32). -/
def headerMap (s : State) (bs : List Byte) : State :=
  let s := (s.setReg aXipCfg (hdrWord bs 4)).setReg 0x1804 (hdrWord bs 8)
  { s with mp := { s.mp with lines := [] } }

/-- A window offset the header names, if it names one (R472). -/
def headerOff (bs : List Byte) (i : Nat) : Option Nat :=
  if u32At bs i % 2 ^ 24 = 0xFFFFFF then none else some (u32At bs i % 2 ^ 24)

/-- The header is judged in E-cycle `t` (R471, R473). -/
def judgeHeader (s : State) (bs : List Byte) (t : Nat) : State :=
  if headerOk bs then
    let s := headerMap s bs
    let s := { s with boot := { s.boot with tableOff := headerOff bs 12, patchOff := headerOff bs 16 } }
    let s := if s.boot.tableOff.isNone then noTable (s.setRegFld aJnlBoot 9 8 3) else s
    match s.boot.patchOff with
    | some a => engineStart { s with boot := { s.boot with stage := .patch } } .boot a 0 t
    | none => bootLast s t
  else
    bootLast (noTable (s.setReg aJnlBoot (put 1 2 (if markOk bs then 2 else 1) ||| put 8 2 3))) t

/-- BOOT_HEADER_CHECK: 64 E-cycles after the header fill ended (R471, R473). -/
def execBootHeaderCheck (s : State) : Host.Outcome State Fault Refusal :=
  .next (match heldLine s 0 with
    | some l =>
      if s.boot.stage = .header ∧ l.validAt + 64 ≤ s.ecyc then judgeHeader s l.data (l.validAt + 64) else s
    | none => s)

/-- BOOT_PATCH_INSTALL: 64 E-cycles after the last patch line (R471, R474). -/
def execBootPatchInstall (s : State) : Host.Outcome State Fault Refusal :=
  .next (if s.boot.stage = .patch ∧ loaderDone s.mp.boot ∧ s.boot.dueAt ≤ s.ecyc then
    let i := imageOf s.mp.boot.bytes
    let s := { s with patch := { s.patch with bank0 := i } }
    bootLast (s.setRegFld aJnlBoot 5 4 (if i.isSome then 1 else 2)) s.boot.dueAt
  else s)

/-- READY_RISE: all four READY balls rise together (R475, R476). -/
def execReadyRise (s : State) : Host.Outcome State Fault Refusal :=
  .next (if s.boot.stage = .last ∧ s.boot.dueAt ≤ s.ecyc then
    let s := s.setRegFld aJnlBoot 31 11 s.boot.dueAt
    let s := { s with boot := { s.boot with stage := .ready } }
    each ([0, 1, 2, 3] : List HostPort) (fun h t => t.updHost h (fun x => { x with ready := true })) s
  else s)

/-- A command waits on an internal condition of the device, and not on what its watchdog leaves out (R479). -/
def watched (x : Slot) : Bool :=
  x.phase == .executing && !x.paused &&
    (x.waits == .calEnd || x.waits == .lock || x.waits == .relock || x.waits == .bus || x.waits == .row || x.waits == .fills ||
      x.waits == .scan)

/-- What a sequencer that takes its bounded exit leaves of its wait: its bus request, its loader or its scan ends. -/
def dropWait (s : State) (sl : Slot) : State :=
  let s := { s with mp := { s.mp with waiting := s.mp.waiting.filter (fun r => r.1 != .xfer sl.stamp && r.1 != .map sl.stamp) } }
  let s := if s.patch.loader = some sl.stamp then
      setEngine { s with patch := { s.patch with loader := none } } .patch .reset
    else s
  match s.dir.scan with
  | some c => if c.stamp = sl.stamp then { s with dir := { s.dir with scan := none } } else s
  | none => s

/-- The length of a watchdog: 50 ms (R479). -/
def watchLen : Nat := 12288000

/-- What MREADY, low now, has taken of a wait since `e` (R479). -/
def lowFor (s : State) (e : Nat) : Nat := match s.mp.low with | some b => s.ecyc - max b e | none => 0

/-- The E-cycles a scan's pauses have taken of its wait (R358, R479). -/
def scanPaused (s : State) (k : Word) : Nat :=
  match s.dir.scan with
  | some c => if c.stamp = k then c.paused + (match c.pauseFrom with | some e => s.ecyc - e | none => 0) else 0
  | none => 0

/-- The E-cycles a command's watchdog leaves out: pauses of its scan, and MREADY while it waits for the bus or its fills
(R479). -/
def unwatched (s : State) (x : Slot) : Nat :=
  scanPaused s x.stamp + x.offWatch + (if x.waits = .bus ∨ x.waits = .fills then lowFor s (x.heldAt.getD x.dispAt) else 0)

/-- A command's watchdog: it ends with INTERNAL (R377, R479). -/
def commandWedged (s : State) (k : Stamp) : State :=
  match findSlot s k with
  | some sl =>
    if watched sl && decide (sl.heldAt.getD sl.dispAt + watchLen + unwatched s sl ≤ s.ecyc) then
      endCommand (endHold (dropWait (s.setErr errInternal) sl) k) k stInternal
    else s
  | none => s

/-- The table loader's watchdog: the load stops as one that is cut (R479; log entry 43). -/
def tableWedged (s : State) : State :=
  let g := s.mp.table
  if g.on && decide (g.from_ + watchLen + g.off + lowFor s g.from_ ≤ s.ecyc) then stopTable (s.setErr errInternal) 2 else s

/-- The directory's watchdog: an update whose step does not end is dropped, its name without a handle (R479; log entry 43). -/
def directoryWedged (s : State) : State :=
  match s.dir.upd with
  | some u =>
    let p := stepPlan s u
    if decide (p.2 + watchLen ≤ s.ecyc) && !stepBlocked s p.1 then
      let s := s.setErr errInternal
      noteHandle { s with dir := { s.dir with upd := none, updFree := s.ecyc + 1 } } u noEntry
    else s
  | none => s

/-- The Juggler's watchdog on a quad: a step or a band calibration that does not end is given up, with the due flags set
(R300, R479; log entry 43). -/
def jugglerWedged (s : State) (q : Quad) : State :=
  match s.quads[q].jug.stepFrom, s.quads[q].syn.calFrom with
  | some e, _ =>
    if s.quads[q].jug.run = false ∧ e + watchLen ≤ s.ecyc then jugRelease (stepOff (s.setErr errInternal) q) q else s
  | none, some e =>
    if s.quads[q].jug.calWas.isSome && decide (e + watchLen ≤ s.ecyc) then
      let s := (synBit (s.setErr errInternal) q 2 false).setRegFld (aQuad q 0x09) 3 0 0
      let s := s.updQuad q (fun x => { x with syn := { x.syn with calFrom := none } })
      jugGiveUp (calWaiters (if s.quads[q].syn.powered then beginLock s q else s) q) q
    else s
  | none, none => s

/-- WATCHDOG_TIMEOUT: 50 ms of an internal wait (R479). -/
def execWatchdogTimeout (w : Watched) (s : State) : Host.Outcome State Fault Refusal :=
  .next (match w with
    | .command k => commandWedged s k
    | .table => tableWedged s
    | .directory => directoryWedged s
    | .juggler q => jugglerWedged s q)

end Sys2Proof.Machine
end

