-- ==== Sys2Proof/Machine/RegCmd.lean ====
section
/-! DEFINITION. Meanings of REG_READ, REG_WRITE and REG_MODIFY (R380 to R382, R407, R409). -/

namespace Sys2Proof.Machine

/-- ADDR and COUNT of a register command (R381). -/
def regAddr (sl : Slot) : Nat := fld (pw sl 0) 15 0
def regCount (sl : Slot) : Nat := fld (pw sl 0) 23 16

/-- The dispatch checks of REG_READ beyond the opcode and the TAG (R368). -/
def chkRegRead (_ : State) (sl : Slot) : List Chk :=
  [lengthIf sl 1, paramIf (fld (pw sl 0) 31 24 != 0 || decide (regCount sl = 0 ∨ 250 < regCount sl)) 1]

/-- REG_READ: every word as of the dispatch E-cycle (R381). -/
def execRegRead (k : Stamp) (s : State) : Host.Outcome State Fault Refusal :=
  .next (attempt s k (· == 0x10) chkRegRead
    (fun t sl =>
      let r := readBlock sl.port (regAddr sl) (regAddr sl) (regCount sl) t
      owe r.2 k [(t.ecyc + 8 + regCount sl, .none)] r.1))

/-- The dispatch checks of REG_WRITE beyond the opcode and the TAG (R368). -/
def chkRegWrite (t : State) (sl : Slot) : List Chk :=
  let at_ := unleasedAt t sl.port (regAddr sl) (regCount sl)
  [lengthIf sl (1 + (if sl.payload.isEmpty then 0 else regCount sl)), paramIf (fld (pw sl 0) 31 24 != 0 || regCount sl == 0) 1,
   leaseIf at_.isSome 1]

/-- REG_WRITE (R360, R382). -/
def execRegWrite (k : Stamp) (s : State) : Host.Outcome State Fault Refusal :=
  .next (attempt s k (· == 0x11) chkRegWrite
    (fun t sl => owe t k [(t.ecyc + 24, .check), (t.ecyc + 24 + regCount sl, .regWrite)] []))

/-- REG_WRITE's words placed. -/
def regWriteAll (s : State) (sl : Slot) : State :=
  writeBlock sl.port (regAddr sl) (regAddr sl) (sl.payload.drop 1) s

/-- REG_WRITE at dispatch + 24: the ceiling with all its words in place (R216, R382). -/
def regWriteCheck (s : State) (k : Word) (sl : Slot) : State :=
  match ceilingAt (regWriteAll s sl) s.variant (regAddr sl) (regCount sl) with
  | some i => (refuseLate s k stCeiling (2 + i)).spend
  | none => s.spend

/-- The dispatch checks of REG_MODIFY beyond the opcode and the TAG (R368). -/
def chkRegModify (t : State) (sl : Slot) : List Chk :=
  [lengthIf sl 3, paramIf (fld (pw sl 0) 31 16 != 0) 1,
   leaseIf (unleasedAt t sl.port (regAddr sl) 1).isSome 1]

/-- REG_MODIFY (R360, R382). -/
def execRegModify (k : Stamp) (s : State) : Host.Outcome State Fault Refusal :=
  .next (attempt s k (· == 0x12) chkRegModify
    (fun t _ => owe t k [(t.ecyc + 24, .check), (t.ecyc + 25, .regModify)] []))

/-- REG_MODIFY's one E-cycle: OLD is read, the masked write made, NEW read back; past the end of the bank it sets RANGE
(R382, R407). -/
def regModifyAll (s : State) (sl : Slot) : State × List Word :=
  let a := regAddr sl
  if beyond a a then (s.setErr errRange, [0, 0])
  else
    let old := peek s sl.port a
    let s := modifyWord (readEffects s sl.port a) sl.port a (pw sl 1) (pw sl 2)
    (s, [old, peek s sl.port a])

/-- REG_MODIFY at dispatch + 24: the ceiling (R216, R382). -/
def regModifyCheck (s : State) (k : Word) (sl : Slot) : State :=
  match ceilingAt (regModifyAll s sl).1 s.variant (regAddr sl) 1 with
  | some _ => (refuseLate s k stCeiling 3).spend
  | none => s.spend

end Sys2Proof.Machine
end

