-- ==== Sys2Proof/Machine/Effects.lean ====
section
/-! DEFINITION. COMMAND_COMPLETE: the effects a command in flight owes, each made in its own E-cycle, and its completion
(R354, R374, R389). -/

namespace Sys2Proof.Machine

/-- The checks of dispatch + 24, by opcode (R200, R208, R216, R253, R382, R385, R386). -/
def dueCheck (s : State) (k : Word) (sl : Slot) : State :=
  let opc := hdrOpc sl.hdr
  if opc = 0x11 then regWriteCheck s k sl
  else if opc = 0x12 then regModifyCheck s k sl
  else if opc = 0x22 then fieldOnCheck s k sl
  else if opc = 0x24 then powerCheck s k sl
  else if opc = 0x25 then tuneCheck s k sl
  else if opc = 0x26 then beamLoadCheck s k sl
  else if opc = 0x27 then beamSelectCheck s k sl
  else seqCheck s k sl

/-- REG_MODIFY's write, with its reply (R382). -/
def regModifyDone (s : State) (k : Word) (sl : Slot) : State :=
  updSlot (regModifyAll s sl).1 k (fun x => { x with body := (regModifyAll s sl).2 })

/-- One owed effect, made in the E-cycle it is due in. -/
def doEffect (s : State) (k : Word) (sl : Slot) (t : Nat) : Effect → State
  | .none => s
  | .check => dueCheck s k sl
  | .lease qs => grantLease s k sl.port qs
  | .notices => flushNotices s
  | .fieldsOff m => fieldsOff s m
  | .carrierOn q => carrierOn s q
  | .fieldUp q => fireQuad s q .fieldUp
  | .regWrite => regWriteAll s sl
  | .regModify => regModifyDone s k sl
  | .freqApply q cal => freqApply s k q cal
  | .calStart q => calStart s k q
  | .beamWrite => beamWrite s k sl
  | .rampEnd q => rampEnd s sl q
  | .tuneStart p => tuneStart s p
  | .tuneEnd p meas _ => tuneEnd s k p meas
  | .barkerArm => barkerArm s k sl
  | .ring enter => ringChange s k enter
  | .calBegin q meas => calBegin s k q meas
  | .calStep q n meas => calStep s k q n meas
  | .calTx q meas => calTx s k q meas
  | .calLoad => calLoad s sl
  | .fullReset => enterReset s .resetDevice sl.port
  | .mpMap => mpMap s sl t
  | .mpDone => mpDone s sl t
  | .loadName i ecc => loadName s k sl i ecc
  | .patchDone => patchDone s k
  | .swap => swapBanks s t

/-- Nothing that arose from a round sequence's exchanges is still on its way (R354). -/
def seqSettled (s : State) (k : Word) : Bool :=
  s.dir.fifo.all (fun x => x.job != k) && (match s.dir.upd with | some u => u.s.job != k | none => true) &&
    (match s.dir.record with | some x => x.job != k | none => true) && s.dir.acts.all (fun a => a.job != k)

/-- What follows a command's last effect: CAL_RUN leaves its quad's calibration status, and a synthesiser that only this
command needed goes down; a refused command leaves nothing (R197, R316, R346). -/
def afterCommand (s : State) (sl : Slot) : State :=
  let opc := hdrOpc sl.hdr
  if sl.refused then s
  else if opc = 0x30 then calOver s (quadField sl) sl
  else if opc = 0x20 ∨ opc = 0x21 then powerSynths s
  else s

/-- A command with nothing left to wait for completes at `t`; a scan and a round sequence are looked at first (R354, R389,
R399). -/
def finishCommand (s : State) (k : Word) (sl : Slot) (t : Nat) : State :=
  if sl.waits = .scan then
    let e := match s.dir.scan with
      | some c => c.beginAt + 8 + 4 * Config.buckets s.variant + c.paused
      | none => t
    let s := scanEnd s k
    match findSlot s k with
    | some x => if x.waits = .nothing then complete s k e else s
    | none => s
  else if sl.waits = .air && isSeqOp (hdrOpc sl.hdr) && sl.openSeqs == 0 && seqSettled s k then
    complete (updSlot s k (fun x => { x with waits := .nothing, body := sumBody x.sum })) k s.ecyc
  else if sl.waits = .nothing then afterCommand (complete s k t) sl
  else s

/-- The owed effects that are due, in order; then the completion. `n` bounds the effects made. -/
def runEffects (k : Word) : Nat → Nat → State → State
  | 0, _, s => s
  | n + 1, t, s =>
    match findSlot s k with
    | none => s
    | some sl =>
      if sl.phase = .executing ∧ sl.paused = false then
        match sl.effs with
        | (d, e) :: rest =>
          if d ≤ s.ecyc then
            runEffects k n d (atTime (updSlot s k (fun x => { x with effs := rest })) d (fun u =>
              doEffect u k { sl with effs := rest } d e))
          else s
        | [] => finishCommand s k sl t
      else s

/-- COMMAND_COMPLETE: what a command in flight owes by this E-cycle is done, and it completes with its last effect
(R354). -/
def execCommandComplete (k : Stamp) (s : State) : Host.Outcome State Fault Refusal :=
  .next (match findSlot s k with
    | some sl => runEffects k (sl.effs.length + 12) s.ecyc s
    | none => s)

end Sys2Proof.Machine
end

