-- ==== Sys2Proof/Machine/HostLink.lean ====
section
/-! DEFINITION. Meanings of the host-port rows (R319 to R338). -/

namespace Sys2Proof.Machine

/-- SELN_FALL: the SPI mode is sampled and the status word starts; a port whose READY is low ignores it (R320, R334,
R337). -/
def execSelnFall (h : HostPort) (sck : Bool) (s : State) : Host.Outcome State Fault Refusal :=
  .next (if s.hosts[h].ready && !s.hosts[h].sel then
    let w := statusWordOf s h
    (s.updHost h (fun x => { x with sel := true, miso := [w], ann := none, run := 0xFFFFFFFF, runAt := s.ecyc })).setRegBit (aHp h 1) 1 sck
  else s)

/-- What word 0 announces (R335, R336). -/
def announcement (w0 : Word) (x : HpSt) : Announce :=
  if linkKind w0 = .replay then { kind := .replay, units := x.held }
  else { kind := linkKind w0, units := runPrefix (announceLimit w0) x.queue }

/-- What word 0 fixes: the units announced, the words that leave on MISO behind the status word, and the release of held
units unless it is a REPLAY (R334 to R336). -/
def fixAnnouncement (w0 : Word) (x : HpSt) : HpSt :=
  let a := announcement w0 x
  { x with ann := some a, miso := x.miso ++ misoUnits a, held := if a.kind = .replay then x.held else [] }

/-- WORD_0_COMPLETE; a port whose READY is low clocks no bit (R335 to R337). -/
def execWord0Complete (h : HostPort) (w0 : Word) (s : State) : Host.Outcome State Fault Refusal :=
  .next (if s.hosts[h].sel && s.hosts[h].ready && s.hosts[h].ann.isNone then
    s.updHost h (fun x => { fixAnnouncement w0 x with run := BitVec.ofNat 32 (crc32 (wordsBits [w0])), runAt := s.ecyc })
  else s)

/-- The kind of the transaction in progress, once word 0 is complete. -/
def kindNow (s : State) (h : HostPort) : Option LinkKind := if s.hosts[h].sel then s.hosts[h].ann.map (·.kind) else none

/-- SELn rises: the transaction ends (R336). -/
def rise (s : State) (h : HostPort) (nbits : Nat) : State := s.updHost h (fun x => selRise s.car.lastStamp s.ecyc x nbits)

/-- DRAIN: the announced units clocked out whole are delivered (R323, R336). -/
def execDrain (h : HostPort) (nbits : Nat) (s : State) : Host.Outcome State Fault Refusal :=
  .next (if kindNow s h = some .drain then rise s h nbits else s)

/-- REPLAY: held units stay held, and the transaction counts (R323, R336). -/
def execReplay (h : HostPort) (nbits : Nat) (s : State) : Host.Outcome State Fault Refusal :=
  .next (if kindNow s h = some .replay then bump (rise s h nbits) (aHp h 7) else s)

/-- COMMAND_FRAME: at the rise of SELn the units clocked out whole are delivered and the frame is judged (R322, R326,
R336). -/
def execCommandFrame (h : HostPort) (nbits : Nat) (mosi : List Word) (s : State) : Host.Outcome State Fault Refusal :=
  .next (if kindNow s h = some .frame ∨ (s.hosts[h].sel ∧ s.hosts[h].ann = none ∧ nbits < 32) then
    judgeFrame (rise s h nbits) h nbits mosi
  else s)

/-- DUP_UNIT: once the original command has finished, the DUP unit of its repeat is queued behind its reply. A command
finishes in its completion, and its reply is queued in the E-cycle after (R331, R354; DEDUCED, log entry 86). -/
def execDupUnit (h : HostPort) (s : State) : Host.Outcome State Fault Refusal :=
  .next (match s.hosts[h].dupOf with
    | some l =>
      if l.done then
        s.updHost h (fun x => { x with dupOf := none, queue := insertBehind x l.stamp { dupUnitOf l with queuedAt := s.ecyc } })
      else s
    | none => s)

/-- A unit word of the transaction in progress is still to be fetched: word 0 is complete, and units are announced (R337). -/
def unitWordAhead (x : HpSt) : Bool := x.sel && (match x.ann with | some a => !a.units.isEmpty | none => false)

/-- READY_STRETCH: READY falls at the word boundary before an announced unit word that has not been fetched, for at most 256
E-cycles (R337). -/
def execReadyStretch (h : HostPort) (cycles : Nat) (s : State) : Host.Outcome State Fault Refusal :=
  .next (if unitWordAhead s.hosts[h] && s.hosts[h].ready then
    s.updHost h (fun x => { x with ready := false, stretch := some (s.ecyc + max 1 (min 256 cycles)) })
  else s)

/-- IRQN_UPDATE: four E-cycles after each change of its condition, the ball follows it (R338). -/
def execIrqnUpdate (h : HostPort) (s : State) : Host.Outcome State Fault Refusal :=
  .next (s.updHost h (fun x =>
    let due := x.irqDue.takeWhile (fun c => decide (c.1 + 4 ≤ s.ecyc))
    { x with irq := (due.getLast?.map (·.2)).getD x.irq, irqDue := x.irqDue.drop due.length }))

end Sys2Proof.Machine
end

