-- ==== Sys2Proof/Machine/Midway.lean ====
section
/-! DEFINITION. Meanings of the capture, counter and Midway rows (R56, R60, R423, R433, R437). Every event row acts only
where its condition holds and its E-cycle has come; elsewhere the state stays as it is (log entry 1). -/

namespace Sys2Proof.Machine

/-- A register trigger over the named numbers of a mask (CH_OUT_CTRL, CH_DLY_CTRL). -/
def regTasks (s : State) (n m : Nat) (t : Nat → MwTask) : State := each (maskList n m) (fun i u => regTask u (t i)) s

/-- TB_CTRL_CAPTURE: a write of 1 to TB_CTRL.CAPTURE (R56). -/
def execTbCtrlCapture (s : State) : Host.Outcome State Fault Refusal :=
  .next (if s.tb.run then tbWriteCapture s else s)

/-- CNT_SAT: the event of the counters that saturated in an earlier E-cycle fires once, and SYS_ERR.CNT_SAT sets (R60,
R417). -/
def execCntSat (s : State) : Host.Outcome State Fault Refusal :=
  .next (if s.cntSat.any (fun e => decide (e < s.ecyc)) then
    fire ({ s with cntSat := s.cntSat.filter (fun e => decide (s.ecyc ≤ e)) }.setErr errCntSat) .cntSat
  else s)

/-- CH_OUT_SET: CH_OUT_CTRL.SET (R437). -/
def execChOutSet (m : BitVec 4) (s : State) : Host.Outcome State Fault Refusal :=
  .next (if s.tb.run then regTasks s 4 m.toNat (fun i => .outSet (four i)) else s)

/-- CH_OUT_CLR: CH_OUT_CTRL.CLR (R425, R437). -/
def execChOutClr (m : BitVec 4) (s : State) : Host.Outcome State Fault Refusal :=
  .next (if s.tb.run then regTasks s 4 m.toNat (fun i => .outClr (four i)) else s)

/-- CH_OUT_TGL: CH_OUT_CTRL.TGL (R437). -/
def execChOutTgl (m : BitVec 4) (s : State) : Host.Outcome State Fault Refusal :=
  .next (if s.tb.run then regTasks s 4 m.toNat (fun i => .outTgl (four i)) else s)

/-- CH_DLY_START: CH_DLY_CTRL.START (R433). -/
def execChDlyStart (m : BitVec 8) (s : State) : Host.Outcome State Fault Refusal :=
  .next (if s.tb.run then regTasks s 8 m.toNat (fun i => .dlyStart (dly i)) else s)

/-- CH_DLY_STOP: CH_DLY_CTRL.STOP (R425, R433). -/
def execChDlyStop (m : BitVec 8) (s : State) : Host.Outcome State Fault Refusal :=
  .next (if s.tb.run then regTasks s 8 m.toNat (fun i => .dlyStop (dly i)) else s)

/-- The first waiting clocked delivery of a channel that fired in an earlier E-cycle. -/
def clockedDue (s : State) (c : Channel) : Option (Nat × Nat × Nat) :=
  s.mw.clocked.find? (fun x => x.1 == c.val && decide (x.2.2 < s.ecyc))

/-- MIDWAY_CLOCKED_DELIVERY: the triggers of a clocked channel, one E-cycle after it fired, whatever its enables are by
then (R423). -/
def execMidwayClockedDelivery (c : Channel) (s : State) : Host.Outcome State Fault Refusal :=
  .next (match clockedDue s c with
    | some x =>
      let s := mwFresh s
      deliverAll { s with mw := { s.mw with clocked := s.mw.clocked.erase x } } c.val x.2.1
    | none => s)

/-- DLY_DONE: a delay reaches the end of its count, becomes idle and fires DONE; one restarted in that E-cycle fires it and
runs on (R433). -/
def execDlyDone (d : DelayNo) (s : State) : Host.Outcome State Fault Refusal :=
  .next (if (mfind s.mw.ended d.val).isSome then
    fire { s with mw := { s.mw with ended := mdel s.mw.ended d.val } } (.dlyDone d)
  else
    match mfind s.mw.delays d.val with
    | some e => if e ≤ s.ecyc then fire (dlyStop s d) (.dlyDone d) else s
    | none => s)

/-- The level an input was last sampled at: of its last edge on the way, or the synchronised one (R437). -/
def sampled (s : State) (n : BallNo) : Bool :=
  match s.mw.ins.reverse.find? (fun x => x.1 == n.val) with
  | some x => x.2.1
  | none => bitAt (s.reg aChStat) (20 + n.val)

/-- The E-cycle that first sampled the level an input now has, while its edge is on the way. -/
def sampledAt (s : State) (n : BallNo) : Option Nat := (s.mw.ins.reverse.find? (fun x => x.1 == n.val)).map (·.2.2)

/-- An input's last edge on its way is dropped: the pulse was missed. -/
def dropEdge (s : State) (n : BallNo) (e : Nat) : State :=
  { s with mw := { s.mw with ins := s.mw.ins.filter (fun x => !(x.1 == n.val && x.2.2 == e)) } }

/-- MW_IN_EDGE: this E-cycle is the first that samples a new level at MW_INn. A level that held for one E-cycle only may be
missed; the synchronised level and the event follow 3 E-cycles after the sample (R437, `edgesDue`; DESIGN CHOICE, log entry
94). -/
def execMwInEdge (n : BallNo) (level : Bool) (s : State) : Host.Outcome State Fault Refusal :=
  .next (if s.tb.run && sampled s n != level then
    match sampledAt s n with
    | some e =>
      if s.ecyc < e + 2 ∧ Config.shortLevelMissed s.free = true then (dropEdge s n e).spend
      else { s.spend with mw := { s.mw with ins := s.mw.ins ++ [(n.val, level, s.ecyc)] } }
    | none => { s with mw := { s.mw with ins := s.mw.ins ++ [(n.val, level, s.ecyc)] } }
  else s)

end Sys2Proof.Machine
end

