-- ==== Sys2Proof/Machine/Time.lean ====
section
/-! DEFINITION. Time: what the end of an E-cycle brings, the E-cycle that passes on an empty queue, and the timebase rows
(R49, R51, R52; log entry 12). -/

namespace Sys2Proof.Machine

/-- The edge of an input that is due takes its level into CH_STAT.IN and raises its event (R437). -/
def edgeSeen (s : State) (x : Nat × Bool × Nat) : State :=
  raise (s.setRegBit aChStat (20 + x.1) x.2.1) (if x.2.1 then .inRise (four x.1) else .inFall (four x.1))

/-- The inputs' edges that fall due before the E-cycle `e`, each in its own E-cycle; 3 after the first sample (R437). -/
def edgesBefore (s : State) (e : Nat) : State :=
  let due := s.mw.ins.filter (fun x => decide (x.2.2 + 3 < e))
  each due (fun x t => returnTo t (edgeSeen (backTo t (x.2.2 + 3)) x))
    { s with mw := { s.mw with ins := s.mw.ins.filter (fun x => decide (e ≤ x.2.2 + 3)) } }

/-- The inputs' edges of an E-cycle that begins: their events are judged behind its commands (R426, R437). -/
def edgesDue (s : State) : State :=
  let due := s.mw.ins.filter (fun x => decide (x.2.2 + 3 ≤ s.ecyc))
  inCommand { s with mw := { s.mw with ins := s.mw.ins.filter (fun x => decide (s.ecyc < x.2.2 + 3)) } } true (fun u =>
    each due (fun x t => edgeSeen t x) u)

/-- Time passes to E-cycle `e`: a scan's reads find their errors, the events that waited are judged, and the copy of the
registers that reads see is replaced whole (R408, R426). -/
def passTo (s : State) (e : Nat) : State :=
  let s := scanErrs (edgesBefore (judgeRaised s) e) e
  let t := each ([0, 1, 2, 3] : List HostPort) (fun h u => irqAging u e h) (watchGaps (endCycle s))
  edgesDue (barkTurn (endStretches (takeCut t e)))

/-- One E-cycle passes with nothing commanded: a CLK_T edge still pending advances the timebase first (R49, R51; log
entry 12). Before the root PLL locks there is no E-cycle to pass. -/
def idleCycle (s : State) : State :=
  if s.tb.run then
    let s := if edgePending s then tbAdvance s else s
    passTo s (s.ecyc + 1)
  else s

/-- The timebase advances at the CLK_T edge of this E-cycle, or time passes to the next edge where this one has been
counted (R49, R51). -/
def nextTick (s : State) : State :=
  if edgePending s then tbAdvance s else tbAdvance (passTo s ((s.ecyc / 160 + 1) * 160))

/-- T_TICK (R51). -/
def execTTick (s : State) : Host.Outcome State Fault Refusal := .next (if s.tb.run then nextTick s else s)

/-- TB_WRAP: the advance that carries TB_NOW from its largest value to 0 (R52). -/
def execTbWrap (s : State) : Host.Outcome State Fault Refusal :=
  .next (if s.tb.run && s.tb.now == 0xFFFFFFFFFFFF then nextTick s else s)

end Sys2Proof.Machine
end

