-- ==== Sys2Proof/Machine/Dispatch.lean ====
section
/-! DEFINITION. The meaning of every command, one arm each. -/

namespace Sys2Proof.Machine

def exec (i : Instr) (s : State) : Host.Outcome State Fault Refusal :=
  match i with
  | .nop k => Sys2Proof.Machine.execNop k s
  | .getCaps k => Sys2Proof.Machine.execGetCaps k s
  | .getStatus k => Sys2Proof.Machine.execGetStatus k s
  | .snapshot k => Sys2Proof.Machine.execSnapshot k s
  | .lease k => Sys2Proof.Machine.execLease k s
  | .unlease k => Sys2Proof.Machine.execUnlease k s
  | .resetDevice k => Sys2Proof.Machine.execResetDevice k s
  | .regRead k => Sys2Proof.Machine.execRegRead k s
  | .regWrite k => Sys2Proof.Machine.execRegWrite k s
  | .regModify k => Sys2Proof.Machine.execRegModify k s
  | .synthSet k => Sys2Proof.Machine.execSynthSet k s
  | .synthCal k => Sys2Proof.Machine.execSynthCal k s
  | .fieldOn k => Sys2Proof.Machine.execFieldOn k s
  | .fieldOff k => Sys2Proof.Machine.execFieldOff k s
  | .powerSet k => Sys2Proof.Machine.execPowerSet k s
  | .tunePort k meas => Sys2Proof.Machine.execTunePort k meas s
  | .beamLoad k => Sys2Proof.Machine.execBeamLoad k s
  | .beamSelect k => Sys2Proof.Machine.execBeamSelect k s
  | .barkerArm k => Sys2Proof.Machine.execBarkerArm k s
  | .ringMode k => Sys2Proof.Machine.execRingMode k s
  | .calRun k meas => Sys2Proof.Machine.execCalRun k meas s
  | .calLoadSet k => Sys2Proof.Machine.execCalLoadSet k s
  | .calRead k => Sys2Proof.Machine.execCalRead k s
  | .stRound k => Sys2Proof.Machine.execStRound k s
  | .stSelect k => Sys2Proof.Machine.execStSelect k s
  | .stRead k => Sys2Proof.Machine.execStRead k s
  | .stWrite k => Sys2Proof.Machine.execStWrite k s
  | .stHalt k => Sys2Proof.Machine.execStHalt k s
  | .stSense k => Sys2Proof.Machine.execStSense k s
  | .stRaw k => Sys2Proof.Machine.execStRaw k s
  | .gInventory k => Sys2Proof.Machine.execGInventory k s
  | .gRead k => Sys2Proof.Machine.execGRead k s
  | .gWrite k => Sys2Proof.Machine.execGWrite k s
  | .gLock k => Sys2Proof.Machine.execGLock k s
  | .gKill k => Sys2Proof.Machine.execGKill k s
  | .gRaw k => Sys2Proof.Machine.execGRaw k s
  | .dirLookup k ecc => Sys2Proof.Machine.execDirLookup k ecc s
  | .dirStream k ecc => Sys2Proof.Machine.execDirStream k ecc s
  | .dirClear k => Sys2Proof.Machine.execDirClear k s
  | .dirLoad k ecc => Sys2Proof.Machine.execDirLoad k ecc s
  | .dirStats k => Sys2Proof.Machine.execDirStats k s
  | .dirMissing k ecc => Sys2Proof.Machine.execDirMissing k ecc s
  | .mpXfer k => Sys2Proof.Machine.execMpXfer k s
  | .mpMap k => Sys2Proof.Machine.execMpMap k s
  | .journalRead k => Sys2Proof.Machine.execJournalRead k s
  | .regionSet k => Sys2Proof.Machine.execRegionSet k s
  | .ceilingSet k => Sys2Proof.Machine.execCeilingSet k s
  | .roleSet k => Sys2Proof.Machine.execRoleSet k s
  | .patchLoad k => Sys2Proof.Machine.execPatchLoad k s
  | .patchSwap k => Sys2Proof.Machine.execPatchSwap k s
  | .unassignedOpcode k => Sys2Proof.Machine.execUnassignedOpcode k s
  | .tbCtrlCapture => Sys2Proof.Machine.execTbCtrlCapture s
  | .geomApply => Sys2Proof.Machine.execGeomApply s
  | .chOutSet m => Sys2Proof.Machine.execChOutSet m s
  | .chOutClr m => Sys2Proof.Machine.execChOutClr m s
  | .chOutTgl m => Sys2Proof.Machine.execChOutTgl m s
  | .chDlyStart m => Sys2Proof.Machine.execChDlyStart m s
  | .chDlyStop m => Sys2Proof.Machine.execChDlyStop m s
  | .cuStart u => Sys2Proof.Machine.execCuStart u s
  | .cuCheck u v => Sys2Proof.Machine.execCuCheck u v s
  | .cuDataWindow u vals => Sys2Proof.Machine.execCuDataWindow u vals s
  | .rclReadClear h addr => Sys2Proof.Machine.execRclReadClear h addr s
  | .registerWrite h addr v => Sys2Proof.Machine.execRegisterWrite h addr v s
  | .selnFall h sck => Sys2Proof.Machine.execSelnFall h sck s
  | .drain h nbits => Sys2Proof.Machine.execDrain h nbits s
  | .replay h nbits => Sys2Proof.Machine.execReplay h nbits s
  | .commandFrame h nbits mosi => Sys2Proof.Machine.execCommandFrame h nbits mosi s
  | .dupUnit h => Sys2Proof.Machine.execDupUnit h s
  | .readyStretch h cycles => Sys2Proof.Machine.execReadyStretch h cycles s
  | .irqnUpdate h => Sys2Proof.Machine.execIrqnUpdate h s
  | .carouselEntry => Sys2Proof.Machine.execCarouselEntry s
  | .turnedAway => Sys2Proof.Machine.execTurnedAway s
  | .commandComplete k => Sys2Proof.Machine.execCommandComplete k s
  | .replyQueued k => Sys2Proof.Machine.execReplyQueued k s
  | .commandUnitResume k => Sys2Proof.Machine.execCommandUnitResume k s
  | .tokenRefresh q => Sys2Proof.Machine.execTokenRefresh q s
  | .ringLost q => Sys2Proof.Machine.execRingLost q s
  | .lockDeclared q => Sys2Proof.Machine.execLockDeclared q s
  | .lockTo q => Sys2Proof.Machine.execLockTo q s
  | .synUnlock q => Sys2Proof.Machine.execSynUnlock q s
  | .bandCalComplete q band => Sys2Proof.Machine.execBandCalComplete q band s
  | .jugglerBandCal q => Sys2Proof.Machine.execJugglerBandCal q s
  | .quadTempConversion t0 t1 t2 t3 => Sys2Proof.Machine.execQuadTempConversion t0 t1 t2 t3 s
  | .receiveStepStart q => Sys2Proof.Machine.execReceiveStepStart q s
  | .receiveStepEnd q meas => Sys2Proof.Machine.execReceiveStepEnd q meas s
  | .receiveSequenceExpiry q => Sys2Proof.Machine.execReceiveSequenceExpiry q s
  | .detectorReading p d => Sys2Proof.Machine.execDetectorReading p d s
  | .barkerSynPowerup q => Sys2Proof.Machine.execBarkerSynPowerup q s
  | .barkerSlot p => Sys2Proof.Machine.execBarkerSlot p s
  | .barkerCompare p gi gq rl phase => Sys2Proof.Machine.execBarkerCompare p gi gq rl phase s
  | .barkerSlotEnd q => Sys2Proof.Machine.execBarkerSlotEnd q s
  | .roundStart q => Sys2Proof.Machine.execRoundStart q s
  | .stametFrameSend q => Sys2Proof.Machine.execStametFrameSend q s
  | .isoFrameSend q => Sys2Proof.Machine.execIsoFrameSend q s
  | .frameEnd q => Sys2Proof.Machine.execFrameEnd q s
  | .huntStart q noise => Sys2Proof.Machine.execHuntStart q noise s
  | .agcBlock p samples => Sys2Proof.Machine.execAgcBlock p samples s
  | .rfcUpdate p e => Sys2Proof.Machine.execRfcUpdate p e s
  | .rfcSat p => Sys2Proof.Machine.execRfcSat p s
  | .overload p dbm => Sys2Proof.Machine.execOverload p dbm s
  | .preambleLock p tz v => Sys2Proof.Machine.execPreambleLock p tz v s
  | .syncDeclaration p tz => Sys2Proof.Machine.execSyncDeclaration p tz s
  | .falseStart p tz => Sys2Proof.Machine.execFalseStart p tz s
  | .pilotQualityAbort p => Sys2Proof.Machine.execPilotQualityAbort p s
  | .portCrcVerdict p rx => Sys2Proof.Machine.execPortCrcVerdict p rx s
  | .combinedVerdict q taps => Sys2Proof.Machine.execCombinedVerdict q taps s
  | .noReplyDeadline q => Sys2Proof.Machine.execNoReplyDeadline q s
  | .bitReplyOutcome q => Sys2Proof.Machine.execBitReplyOutcome q s
  | .exchangeOutcome q => Sys2Proof.Machine.execExchangeOutcome q s
  | .dwellExpire q => Sys2Proof.Machine.execDwellExpire q s
  | .roundEnd q => Sys2Proof.Machine.execRoundEnd q s
  | .bearingFit => Sys2Proof.Machine.execBearingFit s
  | .directoryStep ecc => Sys2Proof.Machine.execDirectoryStep ecc s
  | .actionRecord q => Sys2Proof.Machine.execActionRecord q s
  | .dirScrub bucket err => Sys2Proof.Machine.execDirScrub bucket err s
  | .scanUnitQueue => Sys2Proof.Machine.execScanUnitQueue s
  | .midwayClockedDelivery c => Sys2Proof.Machine.execMidwayClockedDelivery c s
  | .dlyDone d => Sys2Proof.Machine.execDlyDone d s
  | .mwInEdge n level => Sys2Proof.Machine.execMwInEdge n level s
  | .fieldCut q => Sys2Proof.Machine.execFieldCut q s
  | .cntSat => Sys2Proof.Machine.execCntSat s
  | .tbWrap => Sys2Proof.Machine.execTbWrap s
  | .mpBusGrant => Sys2Proof.Machine.execMpBusGrant s
  | .mreadyTimeout => Sys2Proof.Machine.execMreadyTimeout s
  | .mpTransferEnd miso => Sys2Proof.Machine.execMpTransferEnd miso s
  | .lineFillEnd data => Sys2Proof.Machine.execLineFillEnd data s
  | .xipRead e => Sys2Proof.Machine.execXipRead e s
  | .patchSwapExecute => Sys2Proof.Machine.execPatchSwapExecute s
  | .journalRowComplete => Sys2Proof.Machine.execJournalRowComplete s
  | .watchdogTimeout w => Sys2Proof.Machine.execWatchdogTimeout w s
  | .powerOn core an drv io => Sys2Proof.Machine.execPowerOn core an drv io s
  | .supplyTrip x mv ns => Sys2Proof.Machine.execSupplyTrip x mv ns s
  | .resetn ns => Sys2Proof.Machine.execResetn ns s
  | .refclkLoss => Sys2Proof.Machine.execRefclkLoss s
  | .resetRelease bootSrc hrole => Sys2Proof.Machine.execResetRelease bootSrc hrole s
  | .rootPllLock => Sys2Proof.Machine.execRootPllLock s
  | .fuseLoad => Sys2Proof.Machine.execFuseLoad s
  | .scrubComplete => Sys2Proof.Machine.execScrubComplete s
  | .bootHeaderCheck => Sys2Proof.Machine.execBootHeaderCheck s
  | .bootPatchInstall => Sys2Proof.Machine.execBootPatchInstall s
  | .readyRise => Sys2Proof.Machine.execReadyRise s
  | .calTableLoad => Sys2Proof.Machine.execCalTableLoad s
  | .tTick => Sys2Proof.Machine.execTTick s
  | .noisePhaseStart q => Sys2Proof.Machine.execNoisePhaseStart q s
  | .rampDownComplete q => Sys2Proof.Machine.execRampDownComplete q s
  | .mreadyResume high => Sys2Proof.Machine.execMreadyResume high s
  | .word0Complete h w0 => Sys2Proof.Machine.execWord0Complete h w0 s
  | .rxRetryWaitExpiry q => Sys2Proof.Machine.execRxRetryWaitExpiry q s

end Sys2Proof.Machine
end

