-- ==== Sys2Proof/Machine/Balls.lean ====
section
/-! DEFINITION. The output balls as the state gives them: their level while the I/O cells drive them, and none with VDD_IO off
(R319, R437, R443, R465, R495, R498, R512). -/

namespace Sys2Proof.Machine

/-- HPn_READY (R476). -/
def readyBall (s : State) (h : HostPort) : Option Bool := driven s s.hosts[h].ready

/-- HPn_IRQn, active low (R319). -/
def irqBall (s : State) (h : HostPort) : Option Bool := driven s !s.hosts[h].irq

/-- HPn_MISO while word `i` of a transaction is clocked: none while SELn is high (R319, R334). -/
def misoBall (s : State) (h : HostPort) (i : Nat) : Option Word :=
  if s.supply.range.isSome then misoWord s.hosts[h] i else none

/-- MW_OUTn (R437, R512). -/
def mwOutBall (s : State) (n : BallNo) : Option Bool := driven s (mwOut s n)

/-- MSCK, MP_MOSI, and MCS0n or MCS1n (R443, R444). -/
def msckBall (s : State) : Option Bool := driven s (msckHigh s)
def mosiBall (s : State) : Option Bool := driven s (mosiHigh s)
def mcsBall (s : State) (cs : Bool) : Option Bool := driven s (mcsHigh s cs)

/-- PA_EN_Qq, as QUAD_TX_PA.PA_EN shows it (R213). -/
def paEnBall (s : State) (q : Quad) : Option Bool := driven s (bitAt (s.reg (aQuad q 0x05)) 16)

/-- PA_BIAS_Qq, in volts (R213). -/
def paBiasBall (s : State) (q : Quad) : Option Ratio := if s.supply.range.isSome then some (paBiasOut s q) else none

end Sys2Proof.Machine
end

