-- ==== Sys2Proof/Safety.lean ====
section
/-! DEFINITION. The terms statements are made in: which rows are host commands and when one starts, the state such a start
leaves, when a command's next owed effect is due, the canonical form of every map of the state, where a register write is
deferred (R410), and what a judged receive calibration leaves (R304). -/

namespace Sys2Proof.Machine

/-- Every map of the state is in its one canonical form. -/
def State.mapsOk (s : State) : Bool :=
  mwf resetWord 0 s.regs && mwf resetWord 0 s.live && mwf resetWord 0 s.cut.regs && msorted 0 s.cut.made &&
    mwf (fun _ => 0) 0 s.cut.hot &&
    mwf (fun _ => 0) 0 s.beams && msorted 0 s.power &&
    msorted 0 s.fuse.txph && msorted 0 s.fuse.rows && msorted 0 s.dir.entries && msorted 0 s.mw.delays && msorted 0 s.mw.ended &&
    msorted 0 s.mw.grpOld

/-- The host commands: the order stamp a row names, its opcode (R376), and its checks beyond the opcode and the TAG (R368).
UNASSIGNED_OPCODE has no opcode of its own, and every other row is an event. -/
def hostRow : Instr → Option (Stamp × Nat × (State → Slot → List Chk))
  | .nop k => some (k, 0x00, chkNop)
  | .getCaps k => some (k, 0x01, chkGetCaps)
  | .getStatus k => some (k, 0x02, chkGetStatus)
  | .snapshot k => some (k, 0x03, chkSnapshot)
  | .lease k => some (k, 0x04, chkLease)
  | .unlease k => some (k, 0x05, chkUnlease)
  | .resetDevice k => some (k, 0x06, chkResetDevice)
  | .regRead k => some (k, 0x10, chkRegRead)
  | .regWrite k => some (k, 0x11, chkRegWrite)
  | .regModify k => some (k, 0x12, chkRegModify)
  | .synthSet k => some (k, 0x20, chkSynthSet)
  | .synthCal k => some (k, 0x21, chkSynthCal)
  | .fieldOn k => some (k, 0x22, chkFieldOn)
  | .fieldOff k => some (k, 0x23, chkFieldOff)
  | .powerSet k => some (k, 0x24, chkPowerSet)
  | .tunePort k _ => some (k, 0x25, chkTunePort)
  | .beamLoad k => some (k, 0x26, chkBeamLoad)
  | .beamSelect k => some (k, 0x27, chkBeamSelect)
  | .barkerArm k => some (k, 0x28, chkBarkerArm)
  | .ringMode k => some (k, 0x29, chkRingMode)
  | .calRun k _ => some (k, 0x30, chkCalRun)
  | .calLoadSet k => some (k, 0x31, chkCalLoadSet)
  | .calRead k => some (k, 0x32, chkCalRead)
  | .stRound k => some (k, 0x40, chkStRound)
  | .stSelect k => some (k, 0x41, chkStSelect)
  | .stRead k => some (k, 0x42, chkStRead)
  | .stWrite k => some (k, 0x43, chkStWrite)
  | .stHalt k => some (k, 0x44, chkStHalt)
  | .stSense k => some (k, 0x45, chkStSense)
  | .stRaw k => some (k, 0x46, chkStRaw)
  | .gInventory k => some (k, 0x50, chkGInventory)
  | .gRead k => some (k, 0x51, chkGRead)
  | .gWrite k => some (k, 0x52, chkGWrite)
  | .gLock k => some (k, 0x53, chkGLock)
  | .gKill k => some (k, 0x54, chkGKill)
  | .gRaw k => some (k, 0x55, chkGRaw)
  | .dirLookup k _ => some (k, 0x60, chkDirLookup)
  | .dirStream k _ => some (k, 0x61, chkDirStream)
  | .dirClear k => some (k, 0x62, chkDirClear)
  | .dirLoad k _ => some (k, 0x63, chkDirLoad)
  | .dirStats k => some (k, 0x64, chkDirStats)
  | .dirMissing k _ => some (k, 0x65, chkDirMissing)
  | .mpXfer k => some (k, 0x80, chkMpXfer)
  | .mpMap k => some (k, 0x81, chkMpMap)
  | .journalRead k => some (k, 0x90, chkJournalRead)
  | .regionSet k => some (k, 0x91, chkRegionSet)
  | .ceilingSet k => some (k, 0x92, chkCeilingSet)
  | .roleSet k => some (k, 0x93, chkRoleSet)
  | .patchLoad k => some (k, 0xA0, chkPatchLoad)
  | .patchSwap k => some (k, 0xA1, chkPatchSwap)
  | _ => none

/-- A host command begins to execute in this E-cycle: its slot waits, may dispatch (R351 to R353), and passes the checks of
R368. -/
def Starts (c : Instr) (s : State) (sl : Slot) : Prop :=
  match hostRow c with
  | some (k, opc, chks) =>
    findSlot s k = some sl ∧ hdrOpc sl.hdr = opc ∧ mayDispatch s sl = true ∧ (opcodeChk s sl).bad = false ∧
      tagInUse s sl = false ∧ firstBad (chks s sl) = none
  | none => False

/-- The slot of a command as its execution begins (R351). -/
def begun (s : State) (sl : Slot) : Slot := { sl with phase := .executing, dispAt := s.ecyc }

/-- A command that starts and changes nothing but its own slot: it executes from this E-cycle, with what it owes and the
reply body it will give (R354). -/
def started (s : State) (k : Stamp) (effs : List (Nat × Effect)) (body : List Word) : State :=
  updSlot s k (fun x => { x with phase := .executing, dispAt := s.ecyc, effs := effs, body := body })

/-- A command refused at dispatch: it completes at dispatch + 8 with a status and a PWORD, and has no effect (R346); of the
words its reply holds whatever the status, it holds them bare (R372, R391, R392, R396; log entry 45). -/
def refusedSlot (s : State) (k : Stamp) (st : BitVec 8) (pword : BitVec 8) (tag : Bool) : State :=
  updSlot s k (fun x => { x with
    phase := .executing, dispAt := s.ecyc, status := st, pword := pword, tagRefused := tag, refused := true, ended := true,
    hasWait := carriesWait (hdrOpc x.hdr), body := bareBody (hdrOpc x.hdr), effs := [(s.ecyc + 8, .none)] })

/-- The words with a value in use beside the written one that a write may put in use at once (R410). -/
def hasUse (a : Nat) : Bool :=
  decide (0x0150 ≤ a ∧ a < 0x0154 ∨ 0x0400 ≤ a ∧ a < 0x0800 ∧ a % 64 ∈ [0x0A, 0x10, 0x11, 0x12, 0x13, 0x20, 0x21, 0x28, 0x36, 0x37])

/-- A write to the word leaves the value in use as it is, for a start mark, a frame end, a slot, a reading or the end of a
field to apply (R188, R205, R207, R210, R228, R235, R249, R269, R271, R410). -/
def deferred (s : State) (a : Nat) : Bool :=
  let q : Quad := four ((a - 0x0400) / 256)
  if 0x0150 ≤ a ∧ a < 0x0154 then inExchange s (four (a - 0x0150))
  else if 0x0400 ≤ a ∧ a < 0x0800 then
    if a % 64 ∈ [0x10, 0x11, 0x12, 0x13] then inExchange s q
    else if a % 64 = 0x0A ∨ a % 64 = 0x36 then fieldIsOn s q
    else if a % 64 = 0x28 then roundRuns s q
    else if a % 64 ∈ [0x20, 0x21, 0x37] then roundRuns s q || (fieldIsOn s q && (loneTune s q).isSome)
    else decide (a % 64 = 0x2A ∨ a % 64 = 0x2C)
  else decide (0x0800 ≤ a ∧ a < 0x0900 ∧ a % 64 = 4)

/-- A write to the word does no more than place it: it is of no port bank, no CRC unit, no combining mask and no trigger. -/
def placesOnly (a : Nat) : Bool :=
  !decide (a = 0x0140 ∨ 0x0150 ≤ a ∧ a < 0x0154 ∨ 0x0400 ≤ a ∧ a < 0x0800 ∨ a = 0x104D ∨ a = 0x1058 ∨
    0x1400 ≤ a ∧ a < 0x1800 ∨ a = 0x1C05)

/-- The ports a judged receive calibration of a group leaves: one with a step out of bounds keeps its corrections and shows
RX_FAIL; every other has those measured, with its I/Q word, and RX_VALID without RX_DUE (R304). -/
def Judged (s t : State) (q : Quad) (meas : List PortCal) : Prop :=
  ∀ p ∈ calPorts s q,
    if (badBy s q 3 meas).getLsbD p.val then
      bitAt (t.reg (aPort p 0x32)) 8 = true ∧ ∀ off, off ∈ [0x33, 0x34, 0x35, 0x0A] → t.reg (aPort p off) = s.reg (aPort p off)
    else
      t.reg (aPort p 0x33) = s.ports[p].calB ∧ t.reg (aPort p 0x34) = s.ports[p].calM ∧ t.reg (aPort p 0x35) = s.ports[p].calH ∧
        t.reg (aPort p 0x0A) = s.ports[p].calIq &&& 0x03FF03FF ∧ bitAt (t.reg (aPort p 0x32)) 0 = true ∧
        bitAt (t.reg (aPort p 0x32)) 1 = false

/-- A command in flight executes, is not paused, and its next owed effect `e` fell due in E-cycle `d`. -/
def Due (s : State) (k : Stamp) (sl : Slot) (d : Nat) (e : Effect) (rest : List (Nat × Effect)) : Prop :=
  findSlot s k = some sl ∧ sl.phase = .executing ∧ sl.paused = false ∧ sl.effs = (d, e) :: rest ∧ d ≤ s.ecyc

/-- What one owed effect does, made in its own E-cycle `d`, with what reads see of it from then on (R354, R408). -/
def effectMade (s : State) (k : Stamp) (sl : Slot) (d : Nat) (e : Effect) (rest : List (Nat × Effect)) : State :=
  atTime (updSlot s k (fun x => { x with effs := rest })) d (fun u => doEffect u k { sl with effs := rest } d e)

end Sys2Proof.Machine
end

