-- ==== Sys2Proof/Certificates/Slice0/Obligations.lean ====
section
/-! DEFINITION. The statements about this model, each named for what it states. -/

open Sys2Proof Sys2Proof.Machine

/-- A step runs the command at the front of the queue, with the queue's rest (log entry 12 says how a queue comes to be). -/
def Obligations.StepRunsTheFront : Prop :=
  ∀ (c : Instr) (rest : List Instr) (s : State), s.pending = c :: rest → step s = exec c { s with pending := rest }

/-- On an empty queue one E-cycle passes while the timebase runs, and nothing where it does not run (the model's choice,
log entry 12). T_TICK and TB_WRAP at a pending CLK_T edge: the count advances by one, and from its largest value it
becomes 0, TB_EPOCH advances and WRAPPED sets. TB_CTRL_CAPTURE: the count, the epoch and the phase of this E-cycle,
CAP_VALID, and nothing else but TB_STAT. -/
def Obligations.TimePassesAndTheTimebaseCounts : Prop :=
  (∀ s : State, s.pending = [] →
     (s.tb.run = true → ∃ t, step s = .next t ∧ t.ecyc = s.ecyc + 1 ∧ t.pending = []) ∧
       (s.tb.run = false → step s = .next s)) ∧
  (∀ s : State, s.tb.run = true → s.mapsOk = true → edgePending s = true →
     (s.tb.now ≠ 0xFFFFFFFFFFFF → exec .tTick s = .next { s with tb := { s.tb with now := s.tb.now + 1 } }) ∧
     (s.tb.now = 0xFFFFFFFFFFFF → ∃ t, exec .tbWrap s = .next t ∧ exec .tTick s = .next t ∧ t.tb.now = 0 ∧
       t.tb.epoch = s.tb.epoch + 1 ∧ bitAt (t.reg aTbStat) 0 = true ∧ t.ecyc = s.ecyc)) ∧
  (∀ s : State, s.tb.run = true → s.mapsOk = true → ∃ t, exec .tbCtrlCapture s = .next t ∧
     t.tb.capNow = stampNow s ∧ t.tb.capEpoch = BitVec.ofNat 8 (tbCount s / 2 ^ 48) ∧
     t.tb.capPhase = BitVec.ofNat 8 (s.ecyc % 160) ∧ t.tb.now = s.tb.now ∧ t.tb.epoch = s.tb.epoch ∧
     bitAt (t.reg aTbStat) 1 = true ∧ (∀ b, b ≠ aTbStat → t.reg b = s.reg b))

/-- Every command answers a next state: the block has no fault and refuses nothing, and no command touches the queue of
commands that wait. That a row whose cause is absent changes nothing, in place of a stop, is the model's reading (log
entry 1). -/
def Obligations.EveryCommandAnswersAndLeavesTheQueue : Prop :=
  ∀ (c : Instr) (s : State), ∃ t, exec c s = .next t ∧ t.pending = s.pending

/-- Every step keeps every map of the state in its canonical form. -/
def Obligations.StepsKeepTheMapsCanonical : Prop :=
  ∀ s t : State, s.mapsOk = true → step s = .next t → t.mapsOk = true

/-- The state right after reset, as the spec states it: no lease, every field token FREE and every field off, nothing
armed, no beam, no calibration set, an empty directory, an empty Carousel, the timebase stopped at 0. Every output ball
stands as in full reset with VDD_IO on, and none is driven with VDD_IO off. The maps are in
canonical form at reset. Register words for which the spec gives no reset value stand at the model's (log entries 3, 4
and 10), and so do the supplies (log entry 92). -/
def Obligations.ResetIsEmptyAndCanonical : Prop :=
  ((∀ q : Quad, State.reset.quads[q].holder = none ∧ State.reset.quads[q].token = .free ∧
     State.reset.quads[q].field = none ∧ State.reset.quads[q].sel = none) ∧
   State.reset.pending = [] ∧ State.reset.car.slots = [] ∧ State.reset.car.lastStamp = 0xFFFFFFFF ∧
   State.reset.bark.armed = 0 ∧ State.reset.beams = [] ∧ State.reset.power = [] ∧ State.reset.dir.entries = [] ∧
   State.reset.ring = false ∧ State.reset.tb.run = false ∧ State.reset.tb.now = 0 ∧
   (∀ h : HostPort, State.reset.hosts[h].ready = false ∧ State.reset.hosts[h].queue = []) ∧
   (∀ a, State.reset.reg a = resetWord a)) ∧
  (State.reset.mapsOk = true) ∧
  ((∀ (h : HostPort) (i : Nat), readyBall .reset h = some false ∧ irqBall .reset h = some true ∧ misoBall .reset h i = none) ∧
   (∀ n : BallNo, mwOutBall .reset n = some false) ∧ msckBall .reset = some false ∧ mosiBall .reset = some true ∧
   (∀ cs : Bool, mcsBall .reset cs = some true) ∧
   ∀ q : Quad, paEnBall .reset q = some false ∧ (paBiasBall .reset q).map (·.num) = some 0) ∧
  (∀ s : State, s.supply.range = none →
     (∀ (h : HostPort) (i : Nat), readyBall s h = none ∧ irqBall s h = none ∧ misoBall s h i = none) ∧
     (∀ n : BallNo, mwOutBall s n = none) ∧ msckBall s = none ∧ mosiBall s = none ∧ (∀ cs : Bool, mcsBall s cs = none) ∧
     ∀ q : Quad, paEnBall s q = none ∧ paBiasBall s q = none)

/-- Variant, serial number, mask revision and factory transmit phases are of the die: no command changes them. The values
themselves are the model's choice (log entry 3); the statement rests on none of them. -/
def Obligations.TheDieNeverChanges : Prop :=
  ∀ (c : Instr) (s t : State), exec c s = .next t →
    t.fuse.variant = s.fuse.variant ∧ t.fuse.serial = s.fuse.serial ∧ t.fuse.step = s.fuse.step ∧
      t.fuse.metal = s.fuse.metal ∧ t.fuse.txph = s.fuse.txph

/-- The three outcomes of R368's checks for every host command: a failing check gives its status and PWORD, the command
completes at dispatch + 8 with no effect (R346; the words its reply holds beside DETAIL are log entry 45's), and nothing else
changes. A host command that is not in flight, or may not dispatch
yet, changes nothing. UNASSIGNED_OPCODE: a frame with an unassigned opcode is refused with BAD_OPCODE, PWORD 0, at
dispatch + 8. That a row for a stamp that may not dispatch changes nothing is the model's reading (log entry 1). -/
def Obligations.DispatchChecksRefuse : Prop :=
  (∀ (c : Instr) (k : Stamp) (opc : Nat) (chks : State → Slot → List Chk) (s : State) (sl : Slot),
     hostRow c = some (k, opc, chks) → findSlot s k = some sl → hdrOpc sl.hdr = opc → mayDispatch s sl = true →
       let refused (f : Chk) (tag : Bool) : State := refusedSlot s k f.st (BitVec.ofNat 8 f.pw) tag
       ((opcodeChk s sl).bad = true → exec c s = .next (refused (opcodeChk s sl) false)) ∧
       ((opcodeChk s sl).bad = false → tagInUse s sl = true → exec c s = .next (refused (paramIf true 0) true)) ∧
       ∀ f, (opcodeChk s sl).bad = false → tagInUse s sl = false → firstBad (chks s sl) = some f →
         exec c s = .next (refused f false)) ∧
  (∀ (c : Instr) (k : Stamp) (opc : Nat) (chks : State → Slot → List Chk) (s : State),
     hostRow c = some (k, opc, chks) →
       (findSlot s k = none → exec c s = .next s) ∧
       ∀ sl, findSlot s k = some sl → mayDispatch s sl = false → exec c s = .next s) ∧
  (∀ (k : Stamp) (s : State) (sl : Slot), findSlot s k = some sl → isAssigned (hdrOpc sl.hdr) = false →
     mayDispatch s sl = true →
       exec (.unassignedOpcode k) s = .next (refusedSlot s k 0x10 0 false))

/-- NOP, GET_CAPS, SNAPSHOT and GET_STATUS: what each owes, its reply, and the bits GET_STATUS clears: those it names of
the SYS_ERR that its reply shows, so that none that sets in its own E-cycle is lost. -/
def Obligations.SystemReadsRun : Prop :=
  ∀ (k : Stamp) (s : State) (sl : Slot),
    (Starts (.nop k) s sl → exec (.nop k) s = .next (started s k [(s.ecyc + 8, .none)] [])) ∧
    (Starts (.getCaps k) s sl → exec (.getCaps k) s =
      .next (started s k [(s.ecyc + 35, .none)] ((List.range 27).map (fun i => capWord s.variant (8 + i))))) ∧
    (Starts (.snapshot k) s sl → exec (.snapshot k) s = .next (started s k [(s.ecyc + 24, .none)] (snapBlock s))) ∧
    (Starts (.getStatus k) s sl → s.mapsOk = true → ∃ t, exec (.getStatus k) s = .next t ∧
      findSlot t k = some { begun s sl with
        effs := [(s.ecyc + 8, .none)], body := [s.view aSysErr, hpStat s sl.port, hpQueue s sl.port] } ∧
      t.reg aSysErr = s.reg aSysErr &&& ~~~ (pw sl 0 &&& 0x7FF &&& s.view aSysErr) ∧
      (∀ b, b ≠ aSysErr → t.reg b = s.reg b) ∧ t.quads = s.quads ∧ t.hosts = s.hosts ∧ t.dir = s.dir)

/-- LEASE: with every quad it names (all of the ring in ring mode) unleased or its own, it owes the grant at dispatch + 8;
else it ends with BUSY_LEASE and the quads the port holds. Nothing but its slot changes. LEASE's grant: in its completion
E-cycle every quad of the mask is held by the port, and no other quad's holder, no field, no token but one that Barker has,
and no byte of the directory changes. UNLEASE: every quad named (all of the ring in ring mode) loses its lease at dispatch,
and no other quad does. That BUSY_LEASE carries the quads held is the model's reading (log entry 45). -/
def Obligations.LeasesAreGrantedAndReleased : Prop :=
  (∀ (k : Stamp) (s : State) (sl : Slot), Starts (.lease k) s sl →
     let qs := spreadMask s (fld (pw sl 0) 3 0)
     let other (q : Quad) : Bool := s.quads[q].holder.isSome && s.quads[q].holder != some sl.port
     (qs.any other = false → exec (.lease k) s =
       .next (started s k [(s.ecyc + 8, .lease (BitVec.ofNat 4 (maskOf qs)))] [])) ∧
     (qs.any other = true → exec (.lease k) s =
       .next (updSlot (started s k [(s.ecyc + 8, .none)] [put 0 4 (heldMask s sl.port)]) k
         (fun x => { x with status := stBusyLease, pword := 1 })))) ∧
  (∀ (k : Stamp) (s : State) (sl : Slot) (d : Nat) (m : BitVec 4),
     Due s k sl d (.lease m) [] → sl.waits = .nothing → s.tb.run = true → ∃ t, exec (.commandComplete k) s = .next t ∧
       (∀ q : Quad, t.quads[q].holder = if m.getLsbD q.val then some sl.port else s.quads[q].holder) ∧
       (∀ q : Quad, (s.quads[q].token ≠ .barker → t.quads[q].token = s.quads[q].token) ∧
         t.quads[q].field = s.quads[q].field) ∧ t.dir = s.dir ∧ t.fuse = s.fuse) ∧
  (∀ (k : Stamp) (s : State) (sl : Slot), Starts (.unlease k) s sl → ∃ t, exec (.unlease k) s = .next t ∧
     (∀ q ∈ spreadMask s (fld (pw sl 0) 3 0), t.quads[q].holder = none) ∧
     (∀ q : Quad, q ∉ spreadMask s (fld (pw sl 0) 3 0) → t.quads[q].holder = s.quads[q].holder) ∧ t.fuse = s.fuse)

/-- An owed effect that has fallen due is made in its own E-cycle, and what the command owes after it follows. A command
with nothing left but its completion completes in that E-cycle when its last units find places, and pauses when they
find none. COMMAND_UNIT_RESUME: a paused command with places for its last units completes in this E-cycle.
WATCHDOG_TIMEOUT: 12,288,000 E-cycles of a watched wait, the time its pauses and MREADY took left out, set SYS_ERR.INTERNAL
and end the command with INTERNAL; a table load, a directory step and a Juggler's step or calibration that do not end in
that time set it too, and are given up. That a late row makes each effect as of its own E-cycle, and which waits a watchdog
counts and what it leaves of them, are the model's readings (log entries 37 and 43). -/
def Obligations.OwedEffectsComplete : Prop :=
  (∀ (k : Stamp) (s : State) (sl : Slot) (d : Nat) (e : Effect) (rest : List (Nat × Effect)),
     Due s k sl d e rest →
       exec (.commandComplete k) s = .next (runEffects k (rest.length + 12) d (effectMade s k sl d e rest))) ∧
  (∀ (k : Stamp) (s : State) (sl : Slot) (d : Nat), Due s k sl d .none [] → sl.waits = .nothing → sl.early = [] →
     s.tb.run = true → hdrOpc sl.hdr ≠ 0x20 → hdrOpc sl.hdr ≠ 0x21 → hdrOpc sl.hdr ≠ 0x30 →
       (unitsOwed sl ≤ placesFree s sl.port → exec (.commandComplete k) s = .next (updSlot s k (fun x => { x with
         phase := .completed, doneAt := d, paused := false, effs := [], waits := .nothing }))) ∧
       (placesFree s sl.port < unitsOwed sl → exec (.commandComplete k) s = .next (updSlot s k (fun x => { x with
         paused := true, ended := true, effs := [], waits := .nothing })))) ∧
  (∀ (k : Stamp) (s : State) (sl : Slot), findSlot s k = some sl → sl.paused = true → sl.waits = .nothing →
     unitsOwed sl ≤ placesFree s sl.port →
       exec (.commandUnitResume k) s = .next (updSlot s k (fun x => { x with
         phase := .completed, doneAt := s.ecyc, paused := false, effs := [], waits := .nothing }))) ∧
  (∀ (k : Stamp) (s : State) (sl : Slot), s.mapsOk = true → findSlot s k = some sl → watched sl = true → sl.early = [] →
     sl.heldAt.getD sl.dispAt + 12288000 + unwatched s sl ≤ s.ecyc →
     ∃ t x, exec (.watchdogTimeout (.command k)) s = .next t ∧ bitAt (t.reg aSysErr) 10 = true ∧ findSlot t k = some x ∧
       x.status = 0x7F ∧ x.effs = [] ∧ (x.phase = .completed ∨ x.paused = true) ∧ (∀ b, b ≠ aSysErr → t.reg b = s.reg b)) ∧
  (∀ s : State, s.mapsOk = true →
     (∀ g, s.mp.table = g → g.on = true → g.from_ + 12288000 + g.off + lowFor s g.from_ ≤ s.ecyc →
       ∃ t, exec (.watchdogTimeout .table) s = .next t ∧ t.mp.table = EngSt.reset ∧ bitAt (t.reg aSysErr) 10 = true ∧
         fld (t.reg aJnlBoot) 9 8 = 2 ∧ t.car = s.car) ∧
     (∀ u, s.dir.upd = some u → (stepPlan s u).2 + 12288000 ≤ s.ecyc → stepBlocked s (stepPlan s u).1 = false →
       ∃ t, exec (.watchdogTimeout .directory) s = .next t ∧ t.dir.upd = none ∧ t.dir.entries = s.dir.entries ∧
         bitAt (t.reg aSysErr) 10 = true ∧ t.car = s.car) ∧
     (∀ (q : Quad) (e : Nat), e + 12288000 ≤ s.ecyc →
       (s.quads[q].jug.stepFrom = some e → s.quads[q].jug.run = false →
         ∃ t, exec (.watchdogTimeout (.juggler q)) s = .next t ∧ t.quads[q].jug.stepFrom = none ∧
           bitAt (t.reg aSysErr) 10 = true) ∧
       (s.quads[q].jug.stepFrom = none → s.quads[q].syn.calFrom = some e →
         s.car.slots.all (fun x => x.waits != .calEnd) = true → ∀ w, s.quads[q].jug.calWas = some w →
           ∃ t, exec (.watchdogTimeout (.juggler q)) s = .next t ∧ t.quads[q].syn.calFrom = none ∧
             t.quads[q].jug.calWas = none ∧ bitAt (t.reg (aQuad q 0x01)) 3 = true ∧ t.reg (aQuad q 0x02) = w ∧
             bitAt (t.reg aSysErr) 10 = true)))

/-- REPLY_QUEUED: at completion + 1 the slot is freed; no other command in flight changes. REPLY_QUEUED: with no lease
notice waiting, the reply's unit is the one the status, TAG, ALIVE, order and body of the command give, at the tail of
its port's queue; QUIET suppresses it where the status is OK. -/
def Obligations.RepliesAreQueuedOnce : Prop :=
  (∀ (k : Stamp) (s : State) (sl : Slot), findSlot s k = some sl → sl.phase = .completed → sl.doneAt < s.ecyc →
     ∃ t, exec (.replyQueued k) s = .next t ∧ findSlot t k = none ∧ (∀ j, j ≠ k → findSlot t j = findSlot s j) ∧
       t.regs = s.regs ∧ t.quads = s.quads ∧ t.dir = s.dir) ∧
  (∀ (k : Stamp) (s : State) (sl : Slot), findSlot s k = some sl → sl.phase = .completed → sl.doneAt < s.ecyc →
     sl.early = [] → hdrSnap sl.hdr = false → s.car.notices = [] →
     ∃ t, exec (.replyQueued k) s = .next t ∧ t.hosts[sl.port].queue = s.hosts[sl.port].queue ++
       (if hdrQuiet sl.hdr ∧ sl.status = 0x00 then [] else
         [{ status := sl.status, tag := hdrTag sl.hdr, alive := hdrAlive sl.hdr, ukind := 0, more := false, order := sl.stamp,
            body := detailWord sl :: ((if sl.hasWait then [BitVec.ofNat 32 sl.waitE] else []) ++ sl.body),
            queuedAt := s.ecyc }]) ∧
       ∀ h, h ≠ sl.port → t.hosts[h].queue = s.hosts[h].queue)

/-- CAROUSEL_ENTRY: the frame that is next takes the order stamp that follows the last one, and its slot as the latest in
the order; a frame turned away takes a stamp and no slot. TURNED_AWAY: two E-cycles after its entry a frame turned
away draws a TIMEOUT unit with its TAG, ALIVE and stamp. That the TIMEOUT reply waits for a place is the model's
reading (log entry 18), so a place is a premise. -/
def Obligations.FramesEnterOrAreTurnedAway : Prop :=
  (∀ (s : State) (e : Entering), nextEntering s.car.entering = some e → e.commitAt + 6 ≤ s.ecyc →
     ∃ t, exec .carouselEntry s = .next t ∧ t.car.lastStamp = s.car.lastStamp + 1 ∧
       t.car.entering = s.car.entering.erase e ∧
       (e.turned = false → t.car.turned = s.car.turned ∧ ∃ x, t.car.slots = s.car.slots ++ [x] ∧
         x.stamp = s.car.lastStamp + 1 ∧ x.port = e.port ∧ x.hdr = e.hdr ∧ x.payload = e.payload ∧ x.entryAt = s.ecyc ∧
         x.phase = .waiting) ∧
       (e.turned = true → t.car.slots = s.car.slots ∧ ∃ x, t.car.turned = s.car.turned ++ [x] ∧
         x.stamp = s.car.lastStamp + 1 ∧ x.port = e.port ∧ x.hdr = e.hdr ∧ x.entryAt = s.ecyc)) ∧
  (∀ (s : State) (x : Turned) (r : List Turned), s.car.turned = x :: r → x.entryAt + 2 ≤ s.ecyc →
     0 < placesFree s x.port → ∃ t, exec .turnedAway s = .next t ∧ t.car.turned = r ∧ t.car.slots = s.car.slots ∧
       t.hosts[x.port].queue = s.hosts[x.port].queue ++
         [{ status := 0x60, tag := hdrTag x.hdr, alive := hdrAlive x.hdr, ukind := 0, more := false, order := x.stamp,
            body := [], queuedAt := s.ecyc }])

/-- REG_READ takes every word in its dispatch E-cycle and owes its completion COUNT + 8 E-cycles later; its reply has
COUNT words. REG_WRITE and REG_MODIFY owe their check at dispatch + 24 and their write at dispatch + 24 + COUNT and
dispatch + 25, and change nothing before; REG_WRITE's write places its words from its address upward in that one
E-cycle, and REG_MODIFY's reads OLD, makes its masked write and reads NEW back in one. The high word of a pair reads as it
stood when the low word was read on the same path: TB_NOW, TB_CAP, ID_SERIAL, CH_FIRED and CH_COAL; no read loads another
path's latches. -/
def Obligations.RegisterCommandsReadAndWrite : Prop :=
  (∀ (k : Stamp) (s : State) (sl : Slot), Starts (.regRead k) s sl →
     let r := readBlock sl.port (regAddr sl) (regAddr sl) (regCount sl) (startSlot s k)
     ∃ t, exec (.regRead k) s = .next t ∧ findSlot t k = some { begun s sl with
       effs := [(s.ecyc + 8 + regCount sl, .none)], body := r.1 } ∧ r.1.length = regCount sl ∧ t.regs = r.2.regs ∧
       t.latches = r.2.latches ∧ t.quads = s.quads ∧ t.ports = s.ports ∧ t.hosts = s.hosts ∧ t.dir = s.dir) ∧
  (∀ (k : Stamp) (s : State) (sl : Slot),
     (Starts (.regWrite k) s sl → exec (.regWrite k) s =
       .next (started s k [(s.ecyc + 24, .check), (s.ecyc + 24 + regCount sl, .regWrite)] [])) ∧
     (Starts (.regModify k) s sl → exec (.regModify k) s =
       .next (started s k [(s.ecyc + 24, .check), (s.ecyc + 25, .regModify)] [])) ∧
     ∀ d rest, Due s k sl d .regWrite rest → effectMade s k sl d .regWrite rest =
       atTime (updSlot s k (fun x => { x with effs := rest })) d
         (writeBlock sl.port (regAddr sl) (regAddr sl) (sl.payload.drop 1))) ∧
  (∀ (k : Stamp) (s : State) (sl : Slot) (d : Nat) (rest : List (Nat × Effect)), Due s k sl d .regModify rest →
     effectMade s k sl d .regModify rest = atTime (updSlot s k (fun x => { x with effs := rest })) d (fun u =>
       let a := regAddr sl
       if beyond a a then updSlot (u.setErr 8) k (fun x => { x with body := [0, 0] })
       else
         let v := modifyWord (readEffects u sl.port a) sl.port a (pw sl 1) (pw sl 2)
         updSlot v k (fun x => { x with body := [peek u sl.port a, peek v sl.port a] }))) ∧
  (∀ (h : HostPort) (s : State),
     let pair (a : Nat) : List Word := (readBlock h a a 2 s).1
     pair 0x1C00 = [BitVec.ofNat 32 (tbRead s), tbHi s] ∧ pair 0x1C03 = [madeView s 0x1C03, madeView s 0x1C04] ∧
       pair 0x0003 = [BitVec.ofNat 32 s.fuse.serial.toNat, serialHi s] ∧
       pair 0x1048 = [s.view 0x1048, s.view 0x1049] ∧ pair 0x104A = [s.view 0x104A, s.view 0x104B] ∧
       ∀ a, (∀ g, g ≠ h → (readEffects s h a).latches[g] = s.latches[g]) ∧ (readEffects s h a).engLatch = s.engLatch)

/-- REGISTER_WRITE in the host-port and journal banks: RW bits take the value, W1C bits written 1 clear, other bits and
every other register stay; HP_CFG of another port and an absent register take nothing. A flag that sets in the E-cycle of
the write, be it anew, stays set (R411). REGISTER_WRITE in every bank, with the lease it needs and within the ceiling: RW
bits take the value; a word whose use is deferred keeps the value in use, and of the others that have one it is the written
value at once (R410); outside the port banks, the CRC units and the triggers nothing else changes. Without the lease, or
above the ceiling, nothing is written. -/
def Obligations.RegisterWritesFollowTheFieldMap : Prop :=
  (∀ (h : HostPort) (a : BitVec 16) (v : Word) (s : State), s.tb.run = true → 0x2000 ≤ a.toNat →
    beyond a.toNat a.toNat = false →
      let m := writeMasks s h a.toNat
      let w := ((s.reg a.toNat &&& ~~~ m.1) ||| (v &&& m.1)) &&& ~~~ (v &&& m.2.1)
      let hot := mget (fun _ => 0) s.cut.hot a.toNat
      (holdsReg s a.toNat = false → exec (.registerWrite h a v) s = .next s) ∧
      (holdsReg s a.toNat = true → s.view a.toNat = s.reg a.toNat → (s.cut.at_ = s.ecyc → hot = 0) →
        exec (.registerWrite h a v) s = .next ((s.setView a.toNat w).setReg a.toNat w)) ∧
      (s.mapsOk = true → ∃ t, exec (.registerWrite h a v) s = .next t ∧ (∀ b, b ≠ a.toNat → t.reg b = s.reg b) ∧
        ∀ i, i < 32 → bitAt m.2.1 i = true → bitAt m.1 i = false → bitAt (s.reg a.toNat) i = true →
          bitAt (s.view a.toNat) i = false ∨ s.cut.at_ = s.ecyc ∧ bitAt hot i = true → bitAt (t.reg a.toNat) i = true)) ∧
  (∀ (h : HostPort) (a : BitVec 16) (v : Word) (s : State), s.tb.run = true →
    let all := writeBlock h a.toNat a.toNat [v] s
    let rw := (writeMasks s h a.toNat).1
    (((unleasedAt s h a.toNat 1).isSome || (ceilingAt all s.variant a.toNat 1).isSome) = true →
      exec (.registerWrite h a v) s = .next s) ∧
    (s.mapsOk = true → holdsReg s a.toNat = true → beyond a.toNat a.toNat = false → unleasedAt s h a.toNat 1 = none →
      ceilingAt all s.variant a.toNat 1 = none → ∃ t, exec (.registerWrite h a v) s = .next t ∧
        (s.view a.toNat = s.reg a.toNat → t.reg a.toNat &&& rw = v &&& rw ∧
          (hasUse a.toNat = true → deferred s a.toNat = false → t.inUse a.toNat &&& rw = v &&& rw)) ∧
        (deferred s a.toNat = true → ∀ b, t.inUse b = s.inUse b) ∧
        (placesOnly a.toNat = true →
          (∀ b, b ≠ a.toNat → t.reg b = s.reg b) ∧ t = { s with regs := t.regs, cut := t.cut })))

/-- REG_MODIFY's masked write: RW bits receive (OLD AND NOT MASK) OR (VALUE AND MASK),
where no internal change of this E-cycle met the register; outside the port banks, the CRC units and the triggers no other
register changes. A word whose use is deferred keeps the value in use, and of the others that have one it is the written value
at once (R410). -/
def Obligations.MaskedWritesTouchMaskedBitsOnly : Prop :=
  ∀ (h : HostPort) (a : Nat) (mask v : Word) (s : State), s.mapsOk = true →
    let t := modifyWord s h a mask v
    let rw := (writeMasks s h a).1
    let new := (s.reg a &&& ~~~ mask) ||| (v &&& mask)
    (s.view a = s.reg a → t.reg a &&& rw = new &&& rw ∧
      (hasUse a = true → deferred s a = false → t.inUse a &&& rw = new &&& rw)) ∧
      (deferred s a = true → ∀ b, t.inUse b = s.inUse b) ∧
      (placesOnly a = true → (∀ b, b ≠ a → t.reg b = s.reg b) ∧ t = { s with regs := t.regs, cut := t.cut })

/-- RCL_READ_CLEAR: the counter's value is returned and the counter is 0 from then on, but for counts of the same E-cycle,
which the read does not see and the counter keeps: none is lost (R61). No other register changes. An event counter
adds one count, holds at its largest value, and its first count past that sets its SAT flag and makes one CNT_SAT
due. -/
def Obligations.CountersClearAndSaturate : Prop :=
  (∀ (h : HostPort) (a : BitVec 16) (s : State), s.tb.run = true → s.mapsOk = true → isRcl s a.toNat = true →
     ∃ t, exec (.rclReadClear h a) s = .next t ∧ t.lastRead = s.view a.toNat ∧
       (s.view a.toNat = s.reg a.toNat → a.toNat ∉ s.cut.more → t.reg a.toNat = 0) ∧
       t.lastRead + t.reg a.toNat = s.reg a.toNat +
         (if s.cut.at_ = s.ecyc ∧ a.toNat ∈ s.cut.more then 1 else 0) ∧
       (∀ b, b ≠ a.toNat → t.reg b = s.reg b) ∧ a.toNat ∉ t.past ∧ t.quads = s.quads ∧ t.hosts = s.hosts ∧ t.car = s.car) ∧
  (∀ (s : State) (a : Nat), s.mapsOk = true → (regDef a).any (·.rcl) = true →
     (s.reg a ≠ 0xFFFFFFFF → (bump s a).reg a = s.reg a + 1 ∧ (bump s a).cntSat = s.cntSat) ∧
     (s.reg a = 0xFFFFFFFF → (bump s a).reg a = 0xFFFFFFFF ∧
       (a ∉ s.past → (bump s a).cntSat = s.cntSat ++ [s.ecyc] ∧ bitAt ((bump s a).reg (satOf a).1) (satOf a).2 = true) ∧
       (a ∈ s.past → (bump s a).regs = s.regs ∧ (bump s a).cntSat = s.cntSat ∧ (bump s a).past = s.past)))

/-- GEOM_APPLY: the staged position and GVALID of every port are in force together, no other deferred register moves, and
SYS_BEAR_STAT counts and classes the valid ports. DETECTOR_READING, 4,096 E-cycles after the last: a valid reading is in
PORT_ANT_MEAS, and at a level too low to read VALID is clear and both runs are zero. How a geometry's tolerances are tested
is the model's reading (log entry 17); the statement gives no class by value. -/
def Obligations.GeometryAndDetectorRegisters : Prop :=
  (∀ s : State, s.tb.run = true → s.mapsOk = true → Config.hasBearing s.variant = true →
     ∃ t, exec .geomApply s = .next t ∧
       (∀ p : Port, t.inUse (aPort p 0x30) = s.reg (aPort p 0x30) ∧ t.inUse (aPort p 0x31) = s.reg (aPort p 0x31)) ∧
       (∀ a, (∀ p : Port, a ≠ aPort p 0x30 ∧ a ≠ aPort p 0x31) → t.inUse a = s.inUse a) ∧
       (∀ a, a ≠ 0x0141 → t.reg a = s.reg a) ∧
       t.reg 0x0141 = (let on := allPorts.filter (fun p => portPresent t p && gvalid t p)
         put 0 2 (geomClass (on.map (posOf t))) ||| put 4 5 on.length)) ∧
  (∀ (p : Port) (d : DetMeas) (s : State), s.mapsOk = true → radiates s p = true →
     s.quads[quadOf p].token = .control → bitAt (s.reg (aQuad (quadOf p) 0x05)) 17 = false →
     s.ports[p].detAt ≤ s.ecyc → ∃ t, exec (.detectorReading p d) s = .next t ∧ t.ports[p].detAt = s.ecyc + 4096 ∧
       (levelReads s p = true → t.reg (aPort p 0x29) = antWord d.rl d.phase true) ∧
       (levelReads s p = false → bitAt (t.reg (aPort p 0x29)) 16 = false ∧ t.ports[p].faultRun = 0 ∧ t.ports[p].driftRun = 0 ∧
         ∀ b, b ≠ aPort p 0x29 → t.reg b = s.reg b))

/-- CH_OUT_SET, CH_OUT_CLR and CH_OUT_TGL, when nothing else has triggered in the E-cycle: exactly the named outputs set,
clear or invert, and no other register changes; the balls MW_OUTn keep their levels in this E-cycle and have the new
ones in the next. CH_DLY_START and CH_DLY_STOP, when nothing else has triggered in the
E-cycle: the named delays run to their loaded length (0 acts as 1) or are idle, the others go on, and no register
changes. -/
def Obligations.OutputAndDelayTasksAct : Prop :=
  (∀ (m : BitVec 4) (s : State), s.tb.run = true → s.mapsOk = true → (mwFresh s).mw.acted = [] →
     (mwFresh s).mw.regActed = [] →
     let only (t : State) (f : Bool → Bool → Bool) : Prop :=
       (∀ i, i < 4 → bitAt (t.reg aChStat) (16 + i) = f (bitAt (s.reg aChStat) (16 + i)) (m.getLsbD i)) ∧
       (∀ i, i < 16 ∨ 20 ≤ i → bitAt (t.reg aChStat) i = bitAt (s.reg aChStat) i) ∧
       (∀ b, b ≠ aChStat → t.reg b = s.reg b) ∧
       ∀ n : BallNo, mwOut t n = mwOut s n ∧
         (s.mw.outAt ≤ s.ecyc → mwOut { t with ecyc := s.ecyc + 1 } n = bitAt (t.reg aChStat) (16 + n.val))
     (∃ t, exec (.chOutSet m) s = .next t ∧ only t (fun old b => old || b)) ∧
     (∃ t, exec (.chOutClr m) s = .next t ∧ only t (fun old b => old && !b)) ∧
     (∃ t, exec (.chOutTgl m) s = .next t ∧ only t (fun old b => old != b))) ∧
  (∀ (m : BitVec 8) (s : State), s.tb.run = true → s.mapsOk = true → (mwFresh s).mw.acted = [] →
     (mwFresh s).mw.regActed = [] →
     (∃ t, exec (.chDlyStart m) s = .next t ∧ t.regs = s.regs ∧ ∀ k : DelayNo, mfind t.mw.delays k.val =
       if m.getLsbD k.val then some (s.ecyc + max 1 (s.reg (0x1050 + k.val)).toNat) else mfind s.mw.delays k.val) ∧
     (∃ t, exec (.chDlyStop m) s = .next t ∧ t.regs = s.regs ∧ ∀ k : DelayNo, mfind t.mw.delays k.val =
       if m.getLsbD k.val then none else mfind s.mw.delays k.val))

/-- An event marks every channel that it drives: enabled, its group enabled, a selected source matching, and not fired in
this E-cycle already. The Midway events that fall due: DLY_DONE leaves the delay idle and fires (one restarted in that
E-cycle fires and runs on), CNT_SAT fires once
for all saturations of earlier E-cycles with SYS_ERR.CNT_SAT set, a
clocked delivery goes to the channel's destinations. MW_IN_EDGE notes the level that this E-cycle samples; 3 E-cycles after
its sample the level is in CH_STAT.IN and its edge is among the events to be judged in that E-cycle. A level held for one
E-cycle only may be missed (log entry 94), so the sample before is none or 2 E-cycles old. -/
def Obligations.MidwayEventsFire : Prop :=
  (∀ (s : State) (ev : MwEvent) (c : Channel), s.mapsOk = true → bitAt (s.reg (0x1000 + c.val)) 24 = true →
     groupEnabled (mwFresh s) (c.val / 8) = true → fld (s.reg (0x1000 + c.val)) 3 0 &&& srcMask c.val ev ≠ 0 →
     c.val ∉ (mwFresh s).mw.fired → bitAt ((fire s ev).reg (0x1048 + c.val / 32)) (c.val % 32) = true) ∧
  ((∀ (d : DelayNo) (s : State) (e : Nat),
     (mfind s.mw.ended d.val = none → mfind s.mw.delays d.val = some e → e ≤ s.ecyc →
       exec (.dlyDone d) s = .next (fire (dlyStop s d) (.dlyDone d))) ∧
     (mfind s.mw.ended d.val = some e → exec (.dlyDone d) s =
       .next (fire { s with mw := { s.mw with ended := mdel s.mw.ended d.val } } (.dlyDone d)))) ∧
   (∀ s : State, s.cntSat.any (fun e => decide (e < s.ecyc)) = true → exec .cntSat s =
     .next (fire ({ s with cntSat := s.cntSat.filter (fun e => decide (s.ecyc ≤ e)) }.setErr 9) .cntSat)) ∧
   (∀ (n : BallNo) (level : Bool) (s : State), s.tb.run = true → sampled s n ≠ level →
     let ins := s.mw.ins ++ [(n.val, level, s.ecyc)]
     (sampledAt s n = none → exec (.mwInEdge n level) s = .next { s with mw := { s.mw with ins := ins } }) ∧
     (∀ e, sampledAt s n = some e → e + 2 ≤ s.ecyc →
       ∃ t, exec (.mwInEdge n level) s = .next t ∧ t.mw.ins = ins ∧ t.regs = s.regs)) ∧
   (∀ (n : BallNo) (level : Bool) (s : State), s.tb.run = true → s.mapsOk = true → s.pending = [] →
     (∃ e, s.mw.ins = [(n.val, level, e)] ∧ s.ecyc = e + 2) →
     ∃ t, step s = .next t ∧ bitAt (t.reg aChStat) (20 + n.val) = level ∧ t.mw.ins = [] ∧
       (if level then .inRise n else .inFall n) ∈ t.mw.raised) ∧
   (∀ (c : Channel) (s : State) (dst e : Nat) (r : List (Nat × Nat × Nat)), s.mw.clocked = (c.val, dst, e) :: r →
     e < s.ecyc → exec (.midwayClockedDelivery c) s =
       .next (deliverAll { mwFresh s with mw := { (mwFresh s).mw with clocked := r } } c.val dst)))

/-- CU_START: run takes INIT over the unit's width, the result follows it, CU_BITS and the alive capture's count and the
verdict clear, and no other register changes. CU_DATA_WINDOW: the running value is the CRC of the unit's width and polynomial
continued over the fed bits of all the words, in order, the bits above the width stay, the result is that of the
configuration as written, which is in use from the first bit fed on, and CU_BITS counts them, held at its largest value.
CU_CHECK: without the alive rule the verdict is 1 where the result equals the value written in the unit's width, else 2 with
the failure flag set and one failure counted. That START takes the width as written is the model's reading (log entry 11). -/
def Obligations.CrcUnitsCompute : Prop :=
  (∀ (u : CrcUnit) (s : State), s.tb.run = true → s.mapsOk = true →
     let n := 4 + u.val
     let w := cuWidthOf (s.reg (aCu n 3))
     ∃ t, exec (.cuStart u) s = .next t ∧ (t.reg (aCu n 4)).toNat % 2 ^ w = (s.reg (aCu n 1)).toNat % 2 ^ w ∧
       (t.reg (aCu n 4)).toNat / 2 ^ w = (s.reg (aCu n 4)).toNat / 2 ^ w ∧
       t.reg (aCu n 5) = cuResult s n (t.reg (aCu n 4)) ∧ t.reg (aCu n 10) = 0 ∧
       fld (t.reg (aCu n 11)) 14 12 = 0 ∧ fld (t.reg (aCu n 8)) 2 0 = 0 ∧
       (∀ b, b ≠ aCu n 4 → b ≠ aCu n 5 → b ≠ aCu n 10 → b ≠ aCu n 11 → b ≠ aCu n 8 → t.reg b = s.reg b)) ∧
  (∀ (u : CrcUnit) (vals : List Word) (s : State), s.tb.run = true → s.mapsOk = true → vals ≠ [] →
     let n := 4 + u.val
     let bs := vals.flatMap (cuFeedBits (s.reg (aCu n 3)))
     let w := cuWidthOf (s.reg (aCu n 3))
     ∃ t, exec (.cuDataWindow u vals) s = .next t ∧
       (t.reg (aCu n 4)).toNat % 2 ^ w =
         crcFold w (s.reg (aCu n 0)).toNat ((s.reg (aCu n 4)).toNat % 2 ^ w) bs ∧
       (t.reg (aCu n 4)).toNat / 2 ^ w = (s.reg (aCu n 4)).toNat / 2 ^ w ∧
       t.reg (aCu n 5) = cuResult t n (t.reg (aCu n 4)) ∧
       (∀ i, i ∈ [0, 2, 3] → t.inUse (aCu n i) = s.reg (aCu n i)) ∧
       (t.reg (aCu n 10)).toNat = min (2 ^ 32 - 1) ((s.reg (aCu n 10)).toNat + bs.length) ∧
       (∀ b, b ≠ aCu n 4 → b ≠ aCu n 5 → b ≠ aCu n 10 → b ≠ aCu n 11 → t.reg b = s.reg b)) ∧
  (∀ (u : CrcUnit) (v : Word) (s : State), s.tb.run = true → s.mapsOk = true →
     let n := 4 + u.val
     let w := cuWidthOf (s.inUse (aCu n 3))
     bitAt (s.inUse (aCu n 3)) 29 = false →
     ∃ t, exec (.cuCheck u v) s = .next t ∧
       ((s.reg (aCu n 5)).toNat % 2 ^ w = v.toNat % 2 ^ w →
         fld (t.reg (aCu n 8)) 2 0 = 1 ∧ ∀ b, b ≠ aCu n 8 → t.reg b = s.reg b) ∧
       ((s.reg (aCu n 5)).toNat % 2 ^ w ≠ v.toNat % 2 ^ w →
         fld (t.reg (aCu n 8)) 2 0 = 2 ∧ bitAt (t.reg (aCu n 8)) 8 = true ∧
         t.reg (aCu n 9) = (if s.reg (aCu n 9) = 0xFFFFFFFF then 0xFFFFFFFF else s.reg (aCu n 9) + 1)))

/-- SELN_FALL, WORD_0_COMPLETE, READY_STRETCH, IRQN_UPDATE: what each does to its port, and to nothing else; the bound CRC
unit's value starts with SELn's fall and has the first word's bits at the second. That units
are delivered at SELn's rise is the model's choice (log entry 47). -/
def Obligations.LinkPinsFollowTheirRules : Prop :=
  ∀ (h : HostPort) (s : State),
    (∀ sck, s.hosts[h].ready = true → s.hosts[h].sel = false → exec (.selnFall h sck) s = .next
      ((s.updHost h (fun x => { x with
         sel := true, miso := [statusWordOf s h], ann := none, run := 0xFFFFFFFF, runAt := s.ecyc })).setRegBit (aHp h 1) 1 sck)) ∧
    (∀ w0, s.hosts[h].sel = true → s.hosts[h].ready = true → s.hosts[h].ann = none →
      let r : Word := BitVec.ofNat 32 (crc32 (wordsBits [w0]))
      exec (.word0Complete h w0) s = .next (s.updHost h (fun x =>
        if linkKind w0 = .replay then
          let a : Announce := { kind := .replay, units := x.held }
          { x with ann := some a, miso := x.miso ++ announceWord a :: x.held.flatMap unitImage, run := r, runAt := s.ecyc }
        else
          let a : Announce := { kind := linkKind w0, units := runPrefix (announceLimit w0) x.queue }
          { x with ann := some a, miso := x.miso ++ announceWord a :: a.units.flatMap unitImage, held := [], run := r, runAt := s.ecyc }))) ∧
    (∀ n a, s.hosts[h].sel = true → s.hosts[h].ready = true → s.hosts[h].ann = some a → a.units ≠ [] → 1 ≤ n → n ≤ 256 →
      exec (.readyStretch h n) s =
        .next (s.updHost h (fun x => { x with ready := false, stretch := some (s.ecyc + n) }))) ∧
    (∀ e b r, s.hosts[h].irqDue = (e, b) :: r → e + 4 ≤ s.ecyc → (∀ c ∈ r, s.ecyc < c.1 + 4) → exec (.irqnUpdate h) s =
      .next (s.updHost h (fun x => { x with irq := b, irqDue := r })))

/-- DRAIN loses no unit: what it delivers is held, in order, and the rest stays queued; nothing but the port changes.
REPLAY keeps every held unit held and every queued unit queued, and counts. That units are delivered at SELn's rise is
the model's choice (log entry 47). -/
def Obligations.DrainAndReplayLoseNoUnit : Prop :=
  (∀ (h : HostPort) (nbits n : Nat) (s : State) (a : Announce), s.hosts[h].sel = true → s.hosts[h].ann = some a →
     a.kind = .drain → a.units = s.hosts[h].queue.take n → s.hosts[h].aside = [] →
     ∃ t, exec (.drain h nbits) s = .next t ∧ t.hosts[h].held ++ t.hosts[h].queue = s.hosts[h].queue ∧
       t.hosts[h].held = deliveredIn nbits 64 a.units ∧ t.hosts[h].sel = false ∧ t.hosts[h].ann = none ∧
       (∀ g, g ≠ h → t.hosts[g] = s.hosts[g]) ∧ t = { s with hosts := t.hosts }) ∧
  (∀ (h : HostPort) (nbits : Nat) (s : State) (a : Announce), s.mapsOk = true → s.hosts[h].sel = true →
     s.hosts[h].ann = some a → a.kind = .replay → s.hosts[h].aside = [] →
     ∃ t, exec (.replay h nbits) s = .next t ∧ t.hosts[h].held = s.hosts[h].held ∧ t.hosts[h].queue = s.hosts[h].queue ∧
       t.hosts[h].sel = false ∧ t.reg (aHp h 7) = (if s.reg (aHp h 7) = 0xFFFFFFFF then 0xFFFFFFFF else s.reg (aHp h 7) + 1) ∧
       (∀ g, g ≠ h → t.hosts[g] = s.hosts[g]) ∧ t.car = s.car)

/-- COMMAND_FRAME by the rows of R326: a short or wrong length and a failed CRC discard the frame, a repeated ALIVE makes
it a repeat, and every other frame is committed with its header and payload; only a committed frame enters. DUP_UNIT:
once the original has finished, one unit with status DUP (0x21) joins its port's queue, and the wait ends. -/
def Obligations.CommandFramesAreJudged : Prop :=
  (∀ (h : HostPort) (nbits : Nat) (mosi : List Word) (s : State) (a : Announce), s.hosts[h].sel = true →
     s.hosts[h].ann = some a → a.kind = .frame →
     let w0 := mosi.headD 0
     let bits := (wordsBits mosi).take nbits
     let good := 64 ≤ nbits ∧ nbits = hdrLen w0 ∧ crc32 bits = 0
     ∃ t, exec (.commandFrame h nbits mosi) s = .next t ∧ t.hosts[h].sel = false ∧
       (¬ good → t.car = s.car ∧ t.hosts[h].aliveLast = s.hosts[h].aliveLast) ∧
       (good → s.hosts[h].aliveLast = some (hdrAlive w0) →
         t.car = s.car ∧ t.hosts[h].aliveLast = s.hosts[h].aliveLast ∧ dupWaiting t.hosts[h] = true) ∧
       (good → s.hosts[h].aliveLast ≠ some (hdrAlive w0) → t.hosts[h].aliveLast = some (hdrAlive w0) ∧
         t.car = { s.car with entering := s.car.entering ++
           [{ port := h, hdr := w0, payload := packBits ((nbits - 64) / 32) ((bits.drop 32).take (nbits - 64)),
              extra := (nbits - 64) % 32, commitAt := s.ecyc,
              turned := decide (16 ≤ portInFlight s h ∨ Config.deviceLimit s.variant ≤ inFlight s) }] })) ∧
  (∀ (h : HostPort) (s : State) (l : LastCmd), s.hosts[h].dupOf = some l → l.done = true →
     ∃ t, exec (.dupUnit h) s = .next t ∧ t.hosts[h].dupOf = none ∧
       t.hosts[h].queue.length = s.hosts[h].queue.length + 1 ∧
       (∃ u ∈ t.hosts[h].queue, u.ukind = 0 ∧ u.status = 0x21 ∧ u.queuedAt = s.ecyc) ∧
       (∀ g, g ≠ h → t.hosts[g] = s.hosts[g]) ∧ t = { s with hosts := t.hosts })

/-- MP_XFER and MP_MAP ask for the memory bus in their dispatch E-cycle, whatever the bus is doing (or have it at once);
with the bus free and nobody waiting, nothing else changes but their own slot. MP_BUS_GRANT: a request that waits alone and
needs no exit sequence gets the free bus, no earlier than it arose and than the bus was free; a bus that is owned is not
granted. COMMAND_COMPLETE ends both: a transfer on the window's chip select leaves no line held, and a map is the one that
MP_MAP names, with no line held; loaders in progress ask for their lines again. Grants as of their own E-cycle are the
model's reading (log entry 37), and an abandoned fill's rise is a free value (log entry 30). -/
def Obligations.TheMemoryBusIsAskedForAndGranted : Prop :=
  (∀ (k : Stamp) (s : State) (sl : Slot) (c : Instr) (r : BusReq),
     (c = .mpXfer k ∧ r = .xfer k ∨ c = .mpMap k ∧ r = .map k) → Starts c s sl →
     ∃ t, exec c s = .next t ∧ ((r, s.ecyc) ∈ t.mp.waiting ∨ t.mp.owner = some r) ∧
       (s.mp.owner = none → s.mp.waiting = [] → t = { updSlot s k (fun x => { x with
         phase := .executing, dispAt := s.ecyc, waits := .bus, hasWait := true }) with
           mp := { s.mp with waiting := [(r, s.ecyc)] } })) ∧
  (∀ (s : State) (r : BusReq) (a : Nat),
     (s.mp.owner = none → s.mp.waiting = [(r, a)] → needsExit s r = false → max a s.mp.freeAt ≤ s.ecyc →
       ∃ t, exec .mpBusGrant s = .next t ∧ t.mp.owner = some r ∧ t.mp.grantAt = max a s.mp.freeAt ∧ t.mp.waiting = [] ∧
         t.mp.stretch = 0 ∧ t.mp.lines = s.mp.lines) ∧
     (s.mp.owner.isSome = true → exec .mpBusGrant s = .next s)) ∧
  (∀ (k : Stamp) (s : State) (sl : Slot) (d : Nat) (e : Effect), s.mapsOk = true → s.tb.run = true →
     Due s k sl d e [] → sl.waits = .nothing → sl.early = [] →
     s.mp.waiting.all (fun r => r.1 != .xfer k && r.1 != .map k) = true →
     (e = .mpDone → ∃ t x, exec (.commandComplete k) s = .next t ∧ findSlot t k = some x ∧ x.status = sl.status ∧
       (x.phase = .completed ∨ x.paused = true) ∧ t.mp.lines = (if bitAt (pw sl 0) 31 = xipCs s then [] else s.mp.lines) ∧
       (hdrOpc sl.hdr = 0x80 → bitAt (pw sl 0) 31 ≠ xipCs s ∨
         (s.mp.boot.on = false ∧ s.mp.table.on = false ∧ s.mp.patch.on = false) → t.regs = s.regs)) ∧
     (e = .mpMap → ∃ t x, exec (.commandComplete k) s = .next t ∧ findSlot t k = some x ∧ x.status = sl.status ∧
       (x.phase = .completed ∨ x.paused = true) ∧ t.mp.lines = [] ∧ t.reg 0x1804 = pw sl 1 ∧
       t.reg aXipCfg = (put 16 8 (fld (s.reg 0x1805) 7 0) ||| (pw sl 0 &&& 0x0000FFF7))))

/-- MP_TRANSFER_END: the bus is free from the E-cycle its chip select rose in; an MP_XFER owes its completion 8 E-cycles
later, and an exit sequence leaves CONT_ACTIVE clear. LINE_FILL_END: the line is held with its 64 bytes, valid in the
E-cycle the fill ended in; at most four lines are held, and the fill counts. MREADY_RESUME and MREADY_TIMEOUT: MREADY low at
a byte boundary begins a stretch, in which MSCK stays low and MOSI and the chip selects as they were; its end, high, adds
its length to the transfer; 24,576 low samples end it too, set MRDY_TO, count, and have MREADY ignored for the rest of the
transfer. How the row gives the samples is the model's reading (log entry 87). Ends as of their own E-cycle are the model's
reading (log entry 37). -/
def Obligations.TransfersAndFillsFreeTheBus : Prop :=
  (∀ (miso : List Word) (s : State), s.mapsOk = true →
     (∀ k sl, s.mp.owner = some (.xfer k) → busEnd s (.xfer k) ≤ s.ecyc → findSlot s k = some sl → sl.phase = .executing →
       ∃ t x, exec (.mpTransferEnd miso) s = .next t ∧ t.mp.owner = none ∧ t.mp.freeAt = busEnd s (.xfer k) ∧
         findSlot t k = some x ∧ x.effs = [(busEnd s (.xfer k) + 8, .mpDone)] ∧
         x.waitE = sl.waitE + (s.mp.grantAt - sl.dispAt + s.mp.stretch) ∧ t.regs = s.regs) ∧
     (∀ c, s.mp.owner = some (.exit c) → busEnd s (.exit c) ≤ s.ecyc → ∃ t, exec (.mpTransferEnd miso) s = .next t ∧
       t.mp.owner = none ∧ t.mp.freeAt = busEnd s (.exit c) ∧ bitAt (t.reg aMpStat) 4 = false ∧ t.car = s.car)) ∧
  (∀ (data : List Byte) (s : State) (a : Nat), s.mapsOk = true → data.length = 64 → s.mp.lines.length ≤ 4 →
     (s.mp.owner = some (.demand a) ∨ s.mp.owner = some (.spec a)) →
     let e := busEnd s (.demand a)
     e ≤ s.ecyc → (∀ g : Engine, (engineOf s g).from_ ≤ e) → (∀ l ∈ s.mp.lines, l.validAt ≤ e ∧ l.addr ≠ a) →
       ∃ t, exec (.lineFillEnd data) s = .next t ∧ t.mp.owner = none ∧ t.mp.freeAt = e ∧
       (∃ l ∈ t.mp.lines, l.addr = a ∧ l.data = data ∧ l.validAt = e) ∧ t.mp.lines.length ≤ 4 ∧
       t.reg 0x1806 = (if s.reg 0x1806 = 0xFFFFFFFF then 0xFFFFFFFF else s.reg 0x1806 + 1)) ∧
  (∀ s : State,
     (stretchable s = true → s.mp.low = none → byteBoundary s s.ecyc = true →
       exec (.mreadyResume false) s = .next { s with mp := { s.mp with low := some s.ecyc } }) ∧
     ∀ b, s.mp.low = some b →
       (b < s.ecyc → s.ecyc < b + 24576 → ∃ t, exec (.mreadyResume true) s = .next t ∧
         t.mp.stretch = s.mp.stretch + (s.ecyc - b) ∧ t.mp.low = none ∧ t.mp.owner = s.mp.owner ∧ t.regs = s.regs ∧
         ∀ r, busEnd t r = busEnd s r) ∧
       (b + 24576 ≤ s.ecyc → s.mapsOk = true → ∃ t, exec .mreadyTimeout s = .next t ∧
         t.mp.stretch = s.mp.stretch + 24576 ∧ t.mp.low = none ∧ t.mp.ignore = true ∧ bitAt (t.reg aMpStat) 9 = true ∧
         t.reg 0x1808 = (if s.reg 0x1808 = 0xFFFFFFFF then 0xFFFFFFFF else s.reg 0x1808 + 1)) ∧
       (∀ e cs, stretchable s = true → byteBoundary s b = true → b ≤ e →
         msckHigh { s with ecyc := e } = false ∧ mosiHigh { s with ecyc := e } = mosiHigh { s with ecyc := b } ∧
           mcsHigh { s with ecyc := e } cs = mcsHigh { s with ecyc := b } cs))

/-- XIP_READ: a read of a loader takes its bytes 6 E-cycles after they are there: of an image the rest of a line, of the
table four bytes. An image loader's read of a held line begins in the E-cycle the line is there in, and its cursor moves to
the next. CAL_TABLE_LOAD: at READY + 1 the table loader begins at the offset the header named. PATCH_LOAD empties the
inactive bank and starts the loader at the image's place in the window; PATCH_SWAP holds new rounds from its dispatch.
PATCH_SWAP_EXECUTE: once no quad is inside a round the swap is owed 64 E-cycles after dispatch and hold, and its effect,
made by COMMAND_COMPLETE, makes the inactive bank the active one; the images stay where they are. A load ends with its image
in the inactive bank, or with BAD_PARAM and an empty one. Whole-line reads of an image, four-byte reads of the table, and
the swap at the end of its 64 E-cycles are the model's readings (log entries 31 and 40). -/
def Obligations.EnginesReadAndBanksSwap : Prop :=
  ((∀ (s : State) (e : Engine) (h : XipHit) (r : List XipHit), (e = .patch ∨ e = .boot ∧ s.boot.stage = .patch) →
     let g := engineOf s e
     g.hits = h :: r → h.at_ + 6 ≤ s.ecyc → ∃ t, exec (.xipRead e) s = .next t ∧
       engineOf t e = { g with hits := r, bytes := g.bytes ++ h.data, want := wantOf g (g.bytes ++ h.data) }) ∧
   (∀ (s : State) (e : Engine) (l : Line), e ≠ .table → xipOn s = true →
     let g := engineOf s e
     let t0 := max g.from_ l.validAt
     engineFull e g = false → heldLine s g.addr = some l → engineOf (takeRead s e) e = { g with
       addr := winOff (lineOf g.addr + 64), hits := g.hits ++ [{ addr := g.addr, data := l.data.drop (g.addr % 64), at_ := t0 }],
       from_ := t0, off := 0 }) ∧
   (∀ (s : State) (h : XipHit),
     let g := s.mp.table
     g.hits = [h] → h.at_ + 6 ≤ s.ecyc → (g.bytes ++ h.data).length < g.want → g.addr + 4 ≤ 2 ^ 24 →
       ∃ t, exec (.xipRead .table) s = .next t ∧ t.mp.table.on = g.on ∧ t.mp.table.bytes = g.bytes ++ h.data ∧
         t.mp.table.want = g.want ∧ (xipOn s = true → heldLine s g.addr = none →
           t.mp.table.hits = [] ∧ t.mp.table.addr = g.addr ∧ t.mp.table.from_ = h.at_ + 6))) ∧
  (∀ (s : State) (a : Nat), s.boot.tableOff = some a → s.boot.stage = .ready → s.boot.dueAt + 1 ≤ s.ecyc →
     ∃ t, exec .calTableLoad s = .next t ∧ t.boot.tableOff = none ∧ t.mp.records = 0 ∧
       t.mp.table.on = true ∧ t.mp.table.bytes = [] ∧ t.mp.table.want = 8 ∧
       (xipOn s = true → heldLine s (winOff a) = none → t.mp.table =
         { on := true, addr := winOff a, hits := [], bytes := [], want := 8, from_ := s.boot.dueAt + 1, off := 0 }) ∧
       t.quads = s.quads ∧ t.dir = s.dir ∧ t.fuse = s.fuse) ∧
  (∀ (k : Stamp) (s : State) (sl : Slot),
     let a := (fld (pw sl 0) 23 0 + 2 ^ 24 - fld (s.reg 0x1804) 23 0) % 2 ^ 24
     (Starts (.patchLoad k) s sl → ∃ t, exec (.patchLoad k) s = .next t ∧ t.patch.loader = some k ∧
       (if s.patch.active then t.patch.bank0 = none ∧ t.patch.bank1 = s.patch.bank1
        else t.patch.bank1 = none ∧ t.patch.bank0 = s.patch.bank0) ∧
       t.mp.patch.on = true ∧ t.mp.patch.bytes = [] ∧ t.mp.patch.want = 0 ∧
       (xipOn s = true → heldLine s a = none → t.mp.patch =
         { on := true, addr := a, hits := [], bytes := [], want := 0, from_ := s.ecyc, off := 0 }) ∧
       t.patch.active = s.patch.active ∧ t.quads = s.quads ∧ t.fuse = s.fuse) ∧
     (Starts (.patchSwap k) s sl → exec (.patchSwap k) s = .next
       { updSlot s k (fun x => { x with
           phase := .executing, dispAt := s.ecyc, hasWait := true, waits := .rounds,
           heldAt := if inAnyRound s then some s.ecyc else x.heldAt }) with
         patch := { s.patch with hold := some s.ecyc } })) ∧
  ((∀ (k : Stamp) (s : State) (sl : Slot), s.car.slots = [sl] → sl.stamp = k → sl.phase = .executing →
     sl.waits = .rounds → sl.heldAt = none → inAnyRound s = false → exec .patchSwapExecute s = .next
       (updSlot s k (fun x => { x with waits := .nothing, effs := [(sl.dispAt + sl.waitE + 64, .swap)] }))) ∧
   (∀ (s : State) (d : Nat), (swapBanks s d).patch = { s.patch with active := !s.patch.active, hold := none }) ∧
   (∀ (k : Stamp) (s : State) (sl : Slot) (d : Nat) (e : Effect), s.tb.run = true → Due s k sl d e [] →
     sl.waits = .nothing → sl.early = [] →
     (e = .swap → ∃ t x, exec (.commandComplete k) s = .next t ∧ findSlot t k = some x ∧ x.status = sl.status ∧
       (x.phase = .completed ∨ x.paused = true) ∧ t.patch = { s.patch with active := !s.patch.active, hold := none }) ∧
     (e = .patchDone → ∃ t x, exec (.commandComplete k) s = .next t ∧ findSlot t k = some x ∧
       (x.phase = .completed ∨ x.paused = true) ∧ t.patch.loader = none ∧ t.patch.active = s.patch.active ∧
       (if s.patch.active then t.patch.bank0 else t.patch.bank1) = imageOf s.mp.patch.bytes ∧
       (if s.patch.active then t.patch.bank1 else t.patch.bank0) = (if s.patch.active then s.patch.bank1 else s.patch.bank0) ∧
       (∀ i, imageOf s.mp.patch.bytes = some i → x.status = sl.status ∧
         x.body = [put 16 16 i.ident.toNat ||| put 0 14 i.len]) ∧
       (imageOf s.mp.patch.bytes = none → x.status = 0x12))))

/-- JOURNAL_READ: the rows as they stand at dispatch, after the number of rows used, in one unit for up to 62 records.
REGION_SET, CEILING_SET and ROLE_SET by the table of R487: the value already in force costs nothing, an exhausted
allowance or journal ends with LIMIT_EXHAUSTED, and every other value starts one row's programming 24 E-cycles later.
JOURNAL_ROW_COMPLETE: the row holds the record, every other row stays, the setting it names is in force, and the command
owes only its completion in that E-cycle. INDEX
0x7F with LIMIT_EXHAUSTED and the stamp at the start of programming are the model's readings (log entry 42). -/
def Obligations.JournalSettingsTakeEffect : Prop :=
  (∀ (k : Stamp) (s : State) (sl : Slot), Starts (.journalRead k) s sl → jnlCount sl ≤ 62 →
     exec (.journalRead k) s = .next (started s k [(s.ecyc + 8 + 4 * jnlCount sl, .none)]
       (put 0 7 s.fuse.rows.length :: ((List.range (jnlCount sl)).map (fun i => jnlWords s (jnlFirst sl + i))).flatten))) ∧
  (∀ (k : Stamp) (s : State) (sl : Slot) (c : Instr) (n : Nat),
     (c = .regionSet k ∧ n = 1 ∨ c = .ceilingSet k ∧ n = 2 ∨ c = .roleSet k ∧ n = 3) → Starts c s sl →
     let v := pw sl 0
     (v = settingNow s n → exec c s = .next (started s k [(s.ecyc + 8, .none)] (jnlReply 0x7F (leftOf s n)))) ∧
     (v ≠ settingNow s n → leftOf s n = 0 ∨ 64 ≤ nextRow s → exec c s = .next (updSlot
       (started s k [(s.ecyc + 8, .none)] (jnlReply 0x7F (leftOf s n))) k (fun x => { x with status := 0x40, pword := 0 }))) ∧
     (v ≠ settingNow s n → 0 < leftOf s n → nextRow s < 64 → exec c s = .next
       { updSlot s k (fun x => { x with phase := .executing, dispAt := s.ecyc, waits := .row }) with
         boot := { s.boot with prog := some { row := nextRow s, rec_ := journalRecord n sl.port v ((s.ecyc + 24) / 160 % 2 ^ 56),
                                              beginAt := s.ecyc + 24, stamp := k } } })) ∧
  (∀ (s : State) (p : Prog), s.mapsOk = true → s.boot.prog = some p → p.beginAt + 245760 ≤ s.ecyc →
     ∃ t, exec .journalRowComplete s = .next t ∧ t.boot.prog = none ∧ mfind t.fuse.rows p.row = some p.rec_ ∧
       (∀ sl, s.car.slots = [sl] → sl.stamp = p.stamp → sl.phase = .executing → sl.waits = .row → sl.effs = [] →
         sl.units = [.journal] →
         ∃ x, findSlot t p.stamp = some x ∧ x.status = sl.status ∧ x.waits = .nothing ∧
           x.effs = [(p.beginAt + 245760, .none)]) ∧
       (∀ r, r ≠ p.row → mfind t.fuse.rows r = mfind s.fuse.rows r) ∧
       (rowSetting p.rec_ = 1 → t.boot.region = p.rec_.w0 ∧ t.boot.ceiling = s.boot.ceiling) ∧
       (rowSetting p.rec_ = 2 → t.boot.ceiling = p.rec_.w0 ∧ t.boot.region = s.boot.region) ∧
       (rowSetting p.rec_ = 3 → t.boot.primary.val = p.rec_.w0.toNat % 4 ∧ t.boot.region = s.boot.region ∧
         t.boot.ceiling = s.boot.ceiling))

/-- A cause of full reset from a running device: POWER_ON, a supply below its trip level and a RESETn pulse, each of 1 µs or
longer, and the loss of REFCLK leave every field but the fuses, the supplies and the model's own queue and counter at its
reset value, with the cause recorded. A RESETn pulse shorter than 100 ns changes nothing, and a supply above its trip level
resets nothing. POWER_ON has the I/O cells keep the range that VDD_IO rises into, until VDD_IO falls below that range's trip
level. RESET_DEVICE owes a full reset at dispatch + 8, and that effect is full reset with its cause and port. That the
sender's queue and the model's own counter stay is the model's choice (log entries 2 and 12), and the pulse limits are taken
exactly (log entry 5). -/
def Obligations.FullResetLeavesOnlyTheFuses : Prop :=
  (∀ (s : State) (ns : Nat), inFullReset s = false → 1000 ≤ ns → ∃ f : FuseSt,
     let after (c : Cause) (v : SupplySt) : State :=
       { State.inReset f c 0 with pending := s.pending, free := s.free + 1, supply := v }
     (∀ core an drv io, exec (.powerOn core an drv io) s = .next (after .powerOn
       (supplyTo (supplyTo (supplyTo (supplyTo s.supply .core core) .an an) .drv drv) .io io))) ∧
       (∀ x mv, mv < tripLevel s.supply x →
         exec (.supplyTrip x mv ns) s = .next (after .powerOn (supplyTo s.supply x mv))) ∧
       exec (.resetn ns) s = .next (after .resetn s.supply) ∧ exec .refclkLoss s = .next (after .refclk s.supply) ∧
       f.variant = s.fuse.variant ∧ f.serial = s.fuse.serial ∧ (s.boot.prog = none → f = s.fuse)) ∧
  (∀ (s : State) (ns : Nat), (ns < 100 → exec (.resetn ns) s = .next s) ∧
     ∀ x mv, tripLevel s.supply x ≤ mv → exec (.supplyTrip x mv ns) s = .next { s with supply := supplyTo s.supply x mv }) ∧
  (∀ s : State,
     (∀ core an drv io, s.supply.range = none → s.supply.io.mv < io →
       ∃ t, exec (.powerOn core an drv io) s = .next t ∧ t.supply.range = ioRangeOf io) ∧
     ∀ r mv ns, s.supply.range = some r →
       (mv < ioTrip r → 1000 ≤ ns → ∃ t, exec (.supplyTrip .io mv ns) s = .next t ∧ t.supply.range = none) ∧
       (ioTrip r ≤ mv → ∃ t, exec (.supplyTrip .io mv ns) s = .next t ∧ t.supply.range = some r)) ∧
  (∀ (k : Stamp) (s : State) (sl : Slot),
     (Starts (.resetDevice k) s sl →
       exec (.resetDevice k) s = .next (started s k [(s.ecyc + 8, .fullReset)] [])) ∧
     ∀ d rest, Due s k sl d .fullReset rest → inFullReset s = false → ∃ f, exec (.commandComplete k) s =
       .next { State.inReset f .resetDevice sl.port with
         pending := s.pending, free := s.free + 1, supply := s.supply,
         mw := { (State.inReset f .resetDevice sl.port).mw with hold := s.mw.hold } })

/-- The boot's first rows: RESET_RELEASE samples the straps once every supply has reached its release level, ROOT_PLL_LOCK
starts the timebase at 0 with both exit sequences waiting, FUSE_LOAD puts the journalled settings (or their defaults) in
force, SCRUB_COMPLETE empties the directory. -/
def Obligations.TheBootBeginsInOrder : Prop :=
  ∀ s : State,
    (∀ b r, s.boot.stage = .held →
      (released s.supply = true → exec (.resetRelease b r) s =
        .next { s with boot := { s.boot with stage := .released, bootSrc := b, strap := r } }) ∧
      (released s.supply = false → exec (.resetRelease b r) s = .next s)) ∧
    (s.boot.stage = .released → exec .rootPllLock s = .next { s with
      ecyc := 0, tb := { s.tb with run := true, now := 0, epoch := 0 }, boot := { s.boot with stage := .fuses },
      mp := { s.mp with waiting := [(.exit false, 0), (.exit true, 0)] } }) ∧
    (s.boot.stage = .fuses → 4096 ≤ s.ecyc → ∃ t, exec .fuseLoad s = .next t ∧ t.boot.stage = .scrub ∧
      t.boot.region = (journalValue s 1).getD 0x0FA00000 ∧ t.boot.ceiling = (journalValue s 2).getD 0 ∧
      t.boot.primary.val = (match journalValue s 3 with | some v => v.toNat % 4 | none => s.boot.strap.toNat) ∧
      t.dir = s.dir ∧ t.fuse = s.fuse) ∧
    (s.boot.stage = .scrub → 135168 ≤ s.ecyc → ∃ t, exec .scrubComplete s = .next t ∧ t.dir.entries = [] ∧
      t.boot.stage = (if s.boot.bootSrc then .last else .header) ∧ t.fuse = s.fuse)

/-- The boot's last rows: the header's verdict, the patch's installation or rejection, and READY, which rises on all four
ports together and changes nothing else but JNL_BOOT. That the boot's fills start no speculative fill and that offsets
wrap at the window's end are the model's readings (log entries 32 and 39). -/
def Obligations.TheBootEndsWithReady : Prop :=
  ∀ s : State, s.mapsOk = true →
    (∀ l, heldLine s 0 = some l → s.boot.stage = .header → l.validAt + 64 ≤ s.ecyc → ∃ t,
      exec .bootHeaderCheck s = .next t ∧
      (headerOk l.data = false → t.boot.stage = .last ∧ t.boot.dueAt = l.validAt + 64 ∧ fld (t.reg aJnlBoot) 9 8 = 3) ∧
      (headerOk l.data = true → t.boot.stage = (if (headerOff l.data 16).isSome then .patch else .last) ∧
        t.boot.tableOff = headerOff l.data 12)) ∧
    (s.boot.stage = .patch → loaderDone s.mp.boot = true → s.boot.dueAt ≤ s.ecyc → ∃ t,
      exec .bootPatchInstall s = .next t ∧ t.boot.stage = .last ∧ t.patch.bank0 = imageOf s.mp.boot.bytes ∧
      t.patch.bank1 = s.patch.bank1 ∧ fld (t.reg aJnlBoot) 5 4 = (if (imageOf s.mp.boot.bytes).isSome then 1 else 2)) ∧
    (s.boot.stage = .last → s.boot.dueAt ≤ s.ecyc → ∃ t, exec .readyRise s = .next t ∧ t.boot.stage = .ready ∧
      (∀ h : HostPort, t.hosts[h] = { s.hosts[h] with ready := true }) ∧ t.quads = s.quads ∧ t.dir = s.dir ∧
      (∀ b, b ≠ aJnlBoot → t.reg b = s.reg b))

/-- SYNTH_SET, SYNTH_CAL, POWER_SET, BEAM_LOAD, BEAM_SELECT, BARKER_ARM and RING_MODE: each starts with what it owes, and
that effect, made by COMMAND_COMPLETE in its own E-cycle, is what the command is for. POWER_SET: INDEX in the named
ports, or PA_BIAS of the named quad, and no other field of a level. BEAM_LOAD: the 16 entries of the named beam are the
16 payload words, and every other beam stays. BEAM_SELECT: the rotators of the group are the beam's, which is applied.
BARKER_ARM: the mask is in force at once where none was armed or where it is zero, else from the next period.
SYNTH_SET and SYNTH_CAL: the channel is set, the calibration or the lock begins, and the declaration of lock lets the
command complete. RING_MODE: selections of the ring's quads clear, the mode changes 512 E-cycles after an enter and 64
after an exit, and the mode it is in already costs 8. That the calibration is decided by CAL_DUE at dispatch and that a
retune's ramp starts there is the model's choice (log entry 79); that MODE = 1 may name any quad of the ring is the
model's reading (log entry 48). -/
def Obligations.RadioCommandsOweTheirEffects : Prop :=
  (∀ (k : Stamp) (s : State) (sl : Slot),
     (Starts (.powerSet k) s sl → exec (.powerSet k) s = .next (started s k [(s.ecyc + 24, .check)] [])) ∧
     (Starts (.beamLoad k) s sl → exec (.beamLoad k) s =
       .next (started s k [(s.ecyc + 24, .check), (s.ecyc + 40, .beamWrite)] [])) ∧
     (Starts (.beamSelect k) s sl → exec (.beamSelect k) s = .next (started s k [(s.ecyc + 24, .check)] [])) ∧
     (Starts (.barkerArm k) s sl → exec (.barkerArm k) s = .next (started s k [(s.ecyc + 24, .barkerArm)] [])) ∧
     (Starts (.synthCal k) s sl → ∃ t x, exec (.synthCal k) s = .next t ∧ findSlot t k = some x ∧
       x.effs = [(s.ecyc + 24, .calStart (quadField sl))] ∧ x.phase = .executing ∧ x.hasWait = true ∧
       (sl.units = [.quad (quadField sl)] → sl.status = 0x00 → sl.ended = false → t.quads[quadField sl].syn.powered = true) ∧
       t.dir = s.dir ∧ t.fuse = s.fuse) ∧
     (Starts (.synthSet k) s sl → s.mapsOk = true → ∃ t x, exec (.synthSet k) s = .next t ∧ findSlot t k = some x ∧
       x.phase = .executing ∧ x.hasWait = true ∧
       (fieldIsOn s (quadField sl) = false → x.effs =
         [(s.ecyc + 24, .freqApply (quadField sl) (bitAt (s.reg (aQuad (quadField sl) 0x01)) 3))]) ∧
       (fieldIsOn s (quadField sl) = true → bitAt (t.reg (aQuad (quadField sl) 0x05)) 16 = false ∧ x.effs =
         [(s.ecyc + 240, .rampEnd (quadField sl)), (s.ecyc + 264, .freqApply (quadField sl) false)]) ∧
       (∀ p ∈ groupPorts s (quadField sl), t.ports[p].base = none) ∧ t.dir = s.dir ∧ t.fuse = s.fuse)) ∧
  (∀ (k : Stamp) (s : State) (sl : Slot), Starts (.ringMode k) s sl →
     ∃ t x, exec (.ringMode k) s = .next t ∧ findSlot t k = some x ∧ x.phase = .executing ∧ x.body = [0] ∧
       x.effs = (if bitAt (pw sl 0) 0 = s.ring then [(s.ecyc + 8, .none)]
         else if bitAt (pw sl 0) 0 then [(s.ecyc + 512, .ring true)] else [(s.ecyc + 64, .ring false)]) ∧
       (∀ q ∈ ringQuads s.variant, t.quads[q].sel = none) ∧ t.ring = s.ring ∧ t.regs = s.regs ∧
       (∀ q : Quad, t.quads[q].holder = s.quads[q].holder ∧ t.quads[q].token = s.quads[q].token)) ∧
  (∀ (k : Stamp) (s : State) (sl : Slot) (d : Nat) (e : Effect), s.mapsOk = true → s.tb.run = true →
     Due s k sl d e [] → sl.waits = .nothing → sl.early = [] →
     let u := backTo (updSlot s k (fun x => { x with effs := [] })) d
     (e = .check → hdrOpc sl.hdr = 0x24 → bitAt (pw sl 0) 31 = false →
       (∀ q : Quad, admits (powerWrite u sl) q = true ∧
         ((s.quads[q].job.map (·.beams)).getD []).all (admitsBeam (powerWrite u sl) q) = true) →
       ∃ t x, exec (.commandComplete k) s = .next t ∧ findSlot t k = some x ∧ x.status = sl.status ∧
         (x.phase = .completed ∨ x.paused = true) ∧ ∀ p : Port, fld (t.reg (aPort p 0x20)) 6 0 =
           if (fld (pw sl 0) 15 0).testBit p.val then fld (pw sl 0) 22 16 else fld (s.reg (aPort p 0x20)) 6 0) ∧
     (e = .check → hdrOpc sl.hdr = 0x24 → bitAt (pw sl 0) 31 = true →
       ∃ t x, exec (.commandComplete k) s = .next t ∧ findSlot t k = some x ∧ x.status = sl.status ∧
         (x.phase = .completed ∨ x.paused = true) ∧
         fld (t.reg (aQuad (four (fld (pw sl 0) 29 28)) 0x05)) 9 0 = fld (pw sl 0) 9 0 ∧
         ∀ b, b ≠ aQuad (four (fld (pw sl 0) 29 28)) 0x05 → t.reg b = s.reg b) ∧
     (e = .beamWrite → ∃ t, exec (.commandComplete k) s = .next t ∧
       (∀ i, i < 16 → mget (fun _ => 0) t.beams (16 * fld (pw sl 0) 4 0 + i) = pw sl (1 + i)) ∧
       (∀ j, j < 16 * fld (pw sl 0) 4 0 ∨ 16 * fld (pw sl 0) 4 0 + 16 ≤ j →
         mget (fun _ => 0) t.beams j = mget (fun _ => 0) s.beams j) ∧
       (beamOn s (fld (pw sl 0) 4 0) = [] → hdrOpc sl.hdr = 0x26 → t.regs = s.regs ∧
         ∃ x, findSlot t k = some x ∧ (x.phase = .completed ∨ x.paused = true))) ∧
     (e = .check → hdrOpc sl.hdr = 0x27 → admitsBeam u (quadField sl) (fld (pw sl 0) 4 0) = true →
       ∃ t x, exec (.commandComplete k) s = .next t ∧ findSlot t k = some x ∧ x.status = sl.status ∧
         (x.phase = .executing → x.paused = false → ∃ c, x.effs = [(c, .none)] ∧ (c = sl.dispAt + 264 ∨ c = sl.dispAt + 88)) ∧
         ∀ r ∈ groupOf s (quadField sl), fld (t.reg (aQuad r 0x06)) 12 8 = fld (pw sl 0) 4 0 ∧
           bitAt (t.reg (aQuad r 0x06)) 13 = true ∧ ∀ p ∈ portsOf r,
             t.reg (aPort p 0x21) = beamEntry s (fld (pw sl 0) 4 0) p &&& 0x0007FFFF) ∧
     (e = .barkerArm → (fld s.boot.ceiling 19 10 : Int) - 40 ≤ (fld s.boot.ceiling 9 0 : Int) →
       ∃ t x, exec (.commandComplete k) s = .next t ∧ findSlot t k = some x ∧ x.status = sl.status ∧
         (x.phase = .completed ∨ x.paused = true) ∧ t.bark.owner = sl.port ∧
         (s.bark.armed = 0 ∨ fld (pw sl 0) 15 0 = 0 → t.bark.nextMask = none ∧
           t.bark.armed = BitVec.ofNat 16 (fld (pw sl 0) 15 0)) ∧
         (s.bark.armed ≠ 0 → fld (pw sl 0) 15 0 ≠ 0 → t.bark.armed = s.bark.armed ∧
           t.bark.nextMask = some (BitVec.ofNat 16 (fld (pw sl 0) 15 0)))) ∧
     (∀ m, e = .ring m → ∃ t, exec (.commandComplete k) s = .next t ∧ t.ring = m ∧
       (∀ q ∈ ringQuads s.variant, ∀ p ∈ portsOf q, t.ports[p].base = none ∧ bitAt (t.reg (aPort p 0x32)) 1 = true) ∧
       (m = true → ∃ x, findSlot t k = some x ∧ (x.phase = .completed ∨ x.paused = true))) ∧
     (∀ q cal, e = .freqApply q cal → s.quads[q].syn.calFrom = none →
       ∃ t x, exec (.commandComplete k) s = .next t ∧ findSlot t k = some x ∧ x.waits = .lock ∧ x.effs = [] ∧
         t.reg (aQuad q 0x00) = put 0 26 (fld (pw sl 0) 25 0) ||| put 26 1 1 ∧
         t.quads[q].syn.calFrom = (if cal then some d else none) ∧ (cal = false → t.quads[q].syn.lockFrom = some d)) ∧
     (∀ q, e = .calStart q → s.quads[q].syn.calFrom = none →
       ∃ t x, exec (.commandComplete k) s = .next t ∧ findSlot t k = some x ∧ x.waits = .lock ∧
         t.quads[q].syn.calFrom = some d ∧ bitAt (t.reg (aQuad q 0x01)) 2 = true)) ∧
  (∀ (k : Stamp) (s : State) (sl : Slot) (q : Quad) (t0 : Nat), s.mapsOk = true → s.quads[q].syn.lockFrom = some t0 →
     s.quads[q].syn.powered = true → t0 + 1600 ≤ s.ecyc → s.quads[q].jug.calWas = none → findSlot s k = some sl →
     lockWaiters s q = [sl] → s.car.slots.all (fun x => x.waits != .relock) = true →
     (hdrOpc sl.hdr = 0x20 → fieldIsOn s q = false → ∃ t x, exec (.lockDeclared q) s = .next t ∧ findSlot t k = some x ∧
       x.waits = .nothing ∧ x.effs = [(s.ecyc, .none)] ∧ x.body = [put 0 16 (min 0xFFFF (s.ecyc - t0))]) ∧
     (hdrOpc sl.hdr = 0x20 → fieldIsOn s q = true → ∃ t x, exec (.lockDeclared q) s = .next t ∧ findSlot t k = some x ∧
       x.waits = .nothing ∧ x.effs = [(s.ecyc + 48, .carrierOn q), (s.ecyc + 288, .none)] ∧
       x.body = [put 0 16 (min 0xFFFF (s.ecyc - t0))]) ∧
     (hdrOpc sl.hdr = 0x21 → ∃ t x, exec (.lockDeclared q) s = .next t ∧ findSlot t k = some x ∧
       x.waits = .nothing ∧ x.effs = [(s.ecyc, .none)] ∧
       x.body = [t.reg (aQuad q 0x03), put 0 6 (fld (s.reg (aQuad q 0x01)) 21 16)])) ∧
  (∀ (s : State) (sl : Slot), s.mapsOk = true → bitAt (pw sl 0) 31 = false →
     (∀ p : Port, fld ((powerWrite s sl).reg (aPort p 0x20)) 6 0 =
       if (fld (pw sl 0) 15 0).testBit p.val then fld (pw sl 0) 22 16 else fld (s.reg (aPort p 0x20)) 6 0) ∧
     (∀ b, (∀ p : Port, b ≠ aPort p 0x20) → (powerWrite s sl).reg b = s.reg b)) ∧
  (∀ (s : State) (sl : Slot), s.mapsOk = true →
     let b := fld (pw sl 0) 4 0
     (∀ i, i < 16 → mget (fun _ => 0) (loadBeam s sl).beams (16 * b + i) = pw sl (1 + i)) ∧
     (∀ j, j < 16 * b ∨ 16 * b + 16 ≤ j → mget (fun _ => 0) (loadBeam s sl).beams j = mget (fun _ => 0) s.beams j) ∧
     loadBeam s sl = { s with beams := (loadBeam s sl).beams })

/-- FIELD_ON claims the token of its group as it starts, and owes its check at dispatch + 24; no field changes yet.
FIELD_ON's driver enable: the field of every quad of the group counts as on from this E-cycle, EN of its ports follows
MASK, and the carrier follows 48 and FIELD_UP 288 E-cycles later. -/
def Obligations.FieldOnTurnsTheFieldOn : Prop :=
  (∀ (k : Stamp) (s : State) (sl : Slot), Starts (.fieldOn k) s sl →
     ∃ t x, exec (.fieldOn k) s = .next t ∧ findSlot t k = some x ∧ x.phase = .executing ∧
       x.effs = [(s.ecyc + 24, .check)] ∧
       (∀ q ∈ groupOf s (quadField sl), t.quads[q].token = .control ∧ t.quads[q].tokenWas = s.quads[q].token ∧
         t.quads[q].refreshAt = s.ecyc) ∧
       (∀ q : Quad, t.quads[q].field = s.quads[q].field ∧ t.quads[q].holder = s.quads[q].holder ∧
         (q ∉ groupOf s (quadField sl) → t.quads[q].token = s.quads[q].token)) ∧ t.dir = s.dir ∧ t.fuse = s.fuse) ∧
  (∀ (k : Stamp) (s : State) (sl : Slot) (q : Quad) (mask : Nat), s.mapsOk = true → findSlot s k = some sl →
     let t := enableDrivers s k q mask
     (∀ r ∈ groupOf s q, t.quads[r].field = some s.ecyc ∧
       ∀ p ∈ portsOf r, bitAt (t.reg (aPort p 0x21)) 18 = mask.testBit p.val) ∧
     (∀ r : Quad, r ∉ groupOf s q → t.quads[r].field = s.quads[r].field) ∧
     ∃ x, findSlot t k = some x ∧ x.effs = [(s.ecyc + 48, .carrierOn q), (s.ecyc + 288, .fieldUp q)])

/-- FIELD_OFF: PA_EN of every group that it names and that is on falls as it starts, and the field goes off 264 E-cycles
later; a command that names no field that is on completes at dispatch + 8. Fields that go off at the end of their
ramp: the quads of the mask, and in ring mode all of the ring, have no field, no carrier and a FREE token.
RAMP_DOWN_COMPLETE: the ramp of a field cut by a new ceiling or plan ends with the field of the quad or ring off and its
tokens FREE. Which commands a FIELD_OFF ends is the model's
reading (log entries 15 and 16); the statement speaks of fields and tokens. -/
def Obligations.FieldsRampDownAndGoOff : Prop :=
  (∀ (k : Stamp) (s : State) (sl : Slot), s.mapsOk = true → Starts (.fieldOff k) s sl →
     let cut := (spreadMask s (fld (pw sl 0) 3 0)).filter (fieldIsOn s)
     ∃ t x, exec (.fieldOff k) s = .next t ∧ findSlot t k = some x ∧
       x.effs = [if cut.isEmpty then (s.ecyc + 8, .none) else (s.ecyc + 264, .fieldsOff (BitVec.ofNat 4 (maskOf cut)))] ∧
       x.body = [put 0 4 (maskOf cut)] ∧ (∀ q ∈ cut, fieldIsOn s (lead s q) = true → bitAt (t.reg (aQuad q 0x05)) 16 = false) ∧
       (∀ q : Quad, t.quads[q].field = s.quads[q].field ∧ t.quads[q].holder = s.quads[q].holder) ∧ t.fuse = s.fuse) ∧
  (∀ (s : State) (m : BitVec 4) (q : Quad), m.getLsbD q.val = true → fieldIsOn s (lead s q) = true →
     ∀ r ∈ groupOf s q, (fieldsOff s m).quads[r].field = none ∧ (fieldsOff s m).quads[r].carrier = false ∧
       (fieldsOff s m).quads[r].token = .free) ∧
  (∀ (q : Quad) (s : State) (e : Nat), s.quads[lead s q].rampAt = some e → e ≤ s.ecyc →
     ∃ t, exec (.rampDownComplete q) s = .next t ∧ (∀ r ∈ groupOf s q, t.quads[r].field = none ∧
       t.quads[r].token = .free ∧ t.quads[r].carrier = false ∧ t.quads[r].rampAt = none) ∧
       ∀ r : Quad, t.quads[r].holder = s.quads[r].holder)

/-- TUNE_PORT with the field on owes its search's end and its completion; with the field off it claims the token and owes
the check first. The tuner search never keeps a setting worse than one of its starting and coarse candidates, which
are always taken: its best return loss is at least that of each of its first 25 measurements. That TUNE_PORT with the
field off counts its field as on is the model's reading (log entry 19); the order of fine trials (log entry 20) is
left open here. -/
def Obligations.TheTunerSearchesAndKeepsTheBest : Prop :=
  (∀ (k : Stamp) (meas : List TuneMeas) (s : State) (sl : Slot) (p : Port), Starts (.tunePort k meas) s sl →
     p.val = fld (pw sl 0) 3 0 →
     ∃ t x, exec (.tunePort k meas) s = .next t ∧ findSlot t k = some x ∧ x.phase = .executing ∧
       (fieldIsOn s (quadOf p) = true →
         x.effs = [(s.ecyc + 24, .tuneStart p), (s.ecyc + 66392, .tuneEnd p meas false), (s.ecyc + 78680, .none)] ∧ t.quads = s.quads) ∧
       (fieldIsOn s (quadOf p) = false →
         x.effs = [(s.ecyc + 24, .check), (s.ecyc + 312, .tuneStart p), (s.ecyc + 66680, .tuneEnd p meas true),
           (s.ecyc + 66944, .rampEnd (quadOf p))] ∧
         ∀ q ∈ groupOf s (quadOf p), t.quads[q].token = .control) ∧ t.dir = s.dir ∧ t.fuse = s.fuse) ∧
  (∀ (w : Word) (meas : List TuneMeas) (n i : Nat), meas.length = 61 → i < n → n ≤ 61 → i ≤ 24 →
     (meas.getD i { rl := 0, phase := 0 }).rl ≤ (tuneBest w meas n).best.rl)

/-- CAL_RUN, CAL_LOAD_SET and CAL_READ: what each owes once it starts, and those effects, made by COMMAND_COMPLETE in their
own E-cycles. CAL_LOAD_SET: a POWER set is in force for its port and TSET, loaded by a host, and no other; an OFS set is in
the port's words, and in use while no field is on. CAL_RUN TXPH: every radiating port that was measured has the phase that
brings it to the reference, TXPH_VALID and no drift flag, and the others keep theirs. CAL_RUN RX: four steps, each beginning
as the one before ends, keep their results, and the last judges the ports and gives OK, or PARTIAL where one failed. The
built-in codes are a free constant of the model (log entry 8); a CAL_RUN's phase word is its reading (log entry 10) and not
stated. -/
def Obligations.CalibrationCommandsStart : Prop :=
  (∀ (k : Stamp) (meas : List (List PortCal)) (s : State) (sl : Slot),
    (Starts (.calRun k meas) s sl → ∃ t x, exec (.calRun k meas) s = .next t ∧ findSlot t k = some x ∧
      x.phase = .executing ∧ x.hasWait = true ∧ x.effs = (if bitAt (pw sl 0) 0 then
        [(s.ecyc + 32792, .calTx (quadField sl) (meas.getD 0 [])), (s.ecyc + 45080, .none)]
        else [(s.ecyc + 24, .calBegin (quadField sl) meas)]) ∧
      (∀ q : Quad, t.quads[q].holder = s.quads[q].holder ∧ t.quads[q].token = s.quads[q].token ∧
        t.quads[q].field = s.quads[q].field) ∧ t.dir = s.dir ∧ t.fuse = s.fuse) ∧
    (Starts (.calLoadSet k) s sl → exec (.calLoadSet k) s = .next (started s k
      [(s.ecyc + (if fld (pw sl 0) 31 24 = 1 then 88 else 32), .calLoad)] [])) ∧
    (Starts (.calRead k) s sl → ∃ body, exec (.calRead k) s = .next (started s k
      [(s.ecyc + (if fld (pw sl 0) 31 24 = 1 ∨ fld (pw sl 0) 31 24 = 4 then 88 else 32), .none)] body) ∧
      (fld (pw sl 0) 31 24 = 4 → body = packHalves 64 ((List.range 128).map (fun i =>
        Config.nominalCode (fld (pw sl 0) 10 8) i))))) ∧
  (∀ (k : Stamp) (s : State) (sl : Slot) (d : Nat) (p : Port), s.mapsOk = true → s.tb.run = true →
     Due s k sl d .calLoad [] → sl.waits = .nothing → sl.early = [] → hdrOpc sl.hdr = 0x31 →
     p.val = fld (pw sl 0) 19 16 → ∃ t x, exec (.commandComplete k) s = .next t ∧ findSlot t k = some x ∧
       x.status = sl.status ∧ (x.phase = .completed ∨ x.paused = true) ∧
       (fld (pw sl 0) 31 24 = 1 →
         mfind t.power (p.val * 8 + fld (pw sl 0) 10 8) = some { source := 2, codes := loadCodes sl } ∧
         ∀ i, i ≠ p.val * 8 + fld (pw sl 0) 10 8 → mfind t.power i = mfind s.power i) ∧
       (fld (pw sl 0) 31 24 ≠ 1 →
         t.reg (aPort p 0x36) = put 0 16 (fld (pw sl 1) 31 16) ||| put 16 16 (fld (pw sl 1) 15 0) ∧
         fld (t.reg (aPort p 0x37)) 27 16 = fld (pw sl 2) 27 16 ∧ t.ofsHost.getLsbD p.val = true ∧ t.power = s.power ∧
         (fieldIsOn s (quadOf p) = false → t.inUse (aPort p 0x36) = t.reg (aPort p 0x36)))) ∧
  (∀ (k : Stamp) (s : State) (sl : Slot) (d : Nat) (q : Quad) (meas : List PortCal) (c : Nat), s.mapsOk = true →
     Due s k sl d (.calTx q meas) [(c, .none)] → s.ecyc < c →
     let ps := (calPorts s q).filter (radiates s)
     let seen (p : Port) : Bool := meas.any (fun m => m.port == p)
     ∃ t x, exec (.commandComplete k) s = .next t ∧ findSlot t k = some x ∧ x.effs = [(c, .none)] ∧
       x.status = (if ps.all seen then 0x00 else 0x02) ∧ ∀ p : Port,
       (p ∈ ps → seen p = true → fld (t.reg (aPort p 0x37)) 11 0 = txphFor (ownPhase s p (measOf meas p).phase) ∧
         bitAt (t.reg (aPort p 0x32)) 2 = true ∧ bitAt (t.reg (aPort p 0x32)) 3 = false) ∧
       (p ∉ ps ∨ seen p = false → t.reg (aPort p 0x37) = s.reg (aPort p 0x37) ∧ t.reg (aPort p 0x32) = s.reg (aPort p 0x32))) ∧
  (∀ (k : Stamp) (s : State) (sl : Slot) (d : Nat) (q : Quad), s.mapsOk = true → s.tb.run = true →
     (∀ meas, Due s k sl d (.calBegin q meas) [] → s.quads[q].syn.calFrom = none → synReady s q = true →
       s.ecyc < d + 6144 → ∃ t x, exec (.commandComplete k) s = .next t ∧ findSlot t k = some x ∧
         x.effs = (List.range 4).map (fun n => (d + 6144 * (n + 1), .calStep q n (meas.getD n []))) ∧
         t.quads[q].jug.run = true ∧ t.quads[q].jug.stepFrom = some d ∧ fld (t.reg (aQuad q 0x09)) 3 0 = 3 ∧
         ∀ p ∈ groupPorts s q, fld (t.reg (aPort p 0x12)) 4 0 = 0) ∧
     (∀ n meas c e rest, n < 3 → Due s k sl d (.calStep q n meas) ((c, e) :: rest) → s.ecyc < c →
       ∃ t x, exec (.commandComplete k) s = .next t ∧ findSlot t k = some x ∧ x.effs = (c, e) :: rest ∧
         t.quads[q].jug.steps = n + 1 ∧ t.quads[q].jug.stepFrom = some d ∧
         (∀ p ∈ groupPorts s q, fld (t.reg (aPort p 0x12)) 4 0 = if n = 0 then 6 else 12) ∧
         ∀ p ∈ calPorts s q,
           let y := stepResult n (measOf meas p) s.ports[p]
           t.ports[p].calB = y.calB ∧ t.ports[p].calM = y.calM ∧ t.ports[p].calH = y.calH ∧ t.ports[p].calIq = y.calIq) ∧
     (∀ meas, Due s k sl d (.calStep q 3 meas) [] → sl.waits = .nothing → sl.early = [] → hdrOpc sl.hdr = 0x30 →
       ∃ t x, exec (.commandComplete k) s = .next t ∧ findSlot t k = some x ∧ (x.phase = .completed ∨ x.paused = true) ∧
         x.status = (if (calPorts s q).all (fun p => !(badBy s q 3 meas).getLsbD p.val) then 0x00 else 0x02) ∧
         Judged s t q meas ∧ t.quads[lead s q].jug.run = false))

/-- TOKEN_REFRESH, up to the E-cycle in which the timer reaches its limit, restarts the token timer of the whole group and
changes nothing else. RING_LOST, SYN_UNLOCK and FIELD_CUT on a quad that radiates, or in ring mode on the ring: the field and
the carrier of every quad of the group are off, its tokens are LOST, FREE and FREE, its air command and its selection are
gone, no lease changes, and the flags the spec names are set. A cut that a FIELD_CUT task began is complete in a later E-cycle
than it began in. That a cut of the ring sets the CUT flag of each of its quads is the model's reading (log entry 48). -/
def Obligations.TokensRefreshAndFieldsAreCut : Prop :=
  (∀ (q : Quad) (s : State), s.quads[q].token = .control → s.quads[q].refreshAt + 2048 ≤ s.ecyc →
     s.ecyc ≤ s.quads[q].refreshAt + 3932 → ∃ t, exec (.tokenRefresh q) s = .next t ∧ (∀ r : Quad, t.quads[r] =
       if r ∈ groupOf s q then { s.quads[r] with refreshAt := s.ecyc } else s.quads[r]) ∧ t = { s with quads := t.quads }) ∧
  (∀ (q : Quad) (s : State), s.mapsOk = true →
     let l := lead s q
     let off (t : State) (tok : Token) : Prop := (∀ r ∈ groupOf s q, t.quads[r].field = none ∧
       t.quads[r].carrier = false ∧ t.quads[r].token = tok) ∧ t.quads[l].job = none ∧ t.quads[l].sel = none ∧
       ∀ r : Quad, t.quads[r].holder = s.quads[r].holder
     (s.quads[q].token = .control → s.quads[q].refreshAt + 3932 < s.ecyc → ∃ t, exec (.ringLost q) s = .next t ∧
       off t .lost ∧ bitAt (t.reg aSysErr) 1 = true) ∧
     (s.quads[l].token = .control → fieldIsOn s l = true → bitAt (s.reg (aQuad l 0x01)) 0 = true →
       ∃ t, exec (.synUnlock q) s = .next t ∧ off t .free ∧
       bitAt (t.reg aSysErr) 2 = true ∧ bitAt (t.reg (aQuad l 0x01)) 8 = true) ∧
     (∀ t0, s.quads[l].cutFrom = some t0 → (t0 < s.ecyc → ∃ t, exec (.fieldCut q) s = .next t ∧ off t .free ∧
       ∀ r ∈ groupOf s q, bitAt (t.reg aChStat) r.val = true) ∧ (s.ecyc ≤ t0 → exec (.fieldCut q) s = .next s)))

/-- LOCK_DECLARED and LOCK_TO, whatever commands wait, where the Juggler has nothing to give back: LOCKED and LOCK_E, or
the timeout's flags, and a command that waits for the lock ends with TIMEOUT. BAND_CAL_COMPLETE with no command waiting
for the calibration's end: the band is recorded, CAL_DUE clears (of a calibration the Juggler began, with its lock: log
entry 81), the calibration is over, and a powered synthesiser starts to lock. JUGGLER_BAND_CAL: a calibration starts in
its idle gap, with BUSY set. A calibration before the first conversion records a free temperature (log entry 35). -/
def Obligations.SynthesisersCalibrateAndLock : Prop :=
  (∀ (q : Quad) (s : State) (t0 : Nat), s.mapsOk = true → s.quads[q].syn.lockFrom = some t0 →
     s.quads[q].jug.calWas = none →
     (s.quads[q].syn.powered = true → s.quads[q].syn.juggler = false → t0 + 1600 ≤ s.ecyc → ∃ t, exec (.lockDeclared q) s = .next t ∧
       bitAt (t.reg (aQuad q 0x01)) 0 = true ∧ bitAt (t.reg (aQuad q 0x01)) 1 = false ∧
       fld (t.reg (aQuad q 0x03)) 15 0 = min 0xFFFF (s.ecyc - t0) ∧ t.quads[q].syn.lockFrom = none) ∧
     (t0 + 29491 ≤ s.ecyc → s.quads[q].syn.timedOut = false → ∃ t, exec (.lockTo q) s = .next t ∧
       bitAt (t.reg (aQuad q 0x01)) 9 = true ∧ bitAt (t.reg aSysErr) 3 = true ∧
       (lockWaiters s q = [] → s.quads[q].syn.juggler = false → t.quads[q].syn.timedOut = true) ∧
       ∀ sl, lockWaiters s q = [sl] → findSlot s sl.stamp = some sl →
         s.car.slots.all (fun x => x.waits != .relock) = true → ∃ x, findSlot t sl.stamp = some x ∧
         x.status = 0x60 ∧ x.waits = .nothing ∧ x.effs = [(s.ecyc, .none)])) ∧
  (∀ (q : Quad) (band : BitVec 6) (s : State) (t0 : Nat), s.mapsOk = true → s.quads[q].syn.calFrom = some t0 →
     s.car.slots.all (fun x => x.waits != .calEnd) = true → ∃ t, exec (.bandCalComplete q band) s = .next t ∧
       fld (t.reg (aQuad q 0x01)) 21 16 = band.toNat ∧
       bitAt (t.reg (aQuad q 0x01)) 3 = s.quads[q].jug.calWas.isSome ∧ t.quads[q].syn.calFrom = none ∧
         fld (t.reg (aQuad q 0x03)) 31 16 = min 0xFFFF (s.ecyc - t0) ∧
       (s.quads[q].syn.powered = true → t.quads[q].syn.lockFrom = some s.ecyc) ∧ t.dir = s.dir ∧ t.fuse = s.fuse) ∧
  (∀ (q : Quad) (s : State), s.mapsOk = true → s.isReady = true → jugMay s q = true → bandTurn s q = true →
     ∃ t, exec (.jugglerBandCal q) s = .next t ∧ t.quads[q].syn.calFrom = some s.ecyc ∧ t.quads[q].syn.powered = true ∧
       bitAt (t.reg (aQuad q 0x01)) 2 = true ∧ t.car = s.car ∧ t.dir = s.dir)

/-- QUAD_TEMP_CONVERSION: every present quad's reading is valid and the one given, and the others' registers stay.
RECEIVE_STEP_START with the synthesiser ready: the step runs from this E-cycle, and the forced gain of every port of
the group is 0, 6 or 12 by its step. RECEIVE_STEP_END before the last step, RECEIVE_SEQUENCE_EXPIRY and
RX_RETRY_WAIT_EXPIRY: the step counts and its tone is off, the sequence starts over, the retry wait is over. RECEIVE_STEP_END
of the last step, V: the sequence is over and every port is judged, with its corrections in its registers or RX_FAIL. What
becomes of CAL_DUE and RX_DUE, and STEP, are the model's readings (log entry 49) and are not stated. -/
def Obligations.TheJugglerConvertsAndSteps : Prop :=
  (∀ (t0 t1 t2 t3 : BitVec 16) (s : State), s.mapsOk = true → s.tb.run = true → 0 < s.ecyc → s.ecyc % 245760 = 0 →
     ∃ t, exec (.quadTempConversion t0 t1 t2 t3) s = .next t ∧ ∀ q : Quad, t.reg (aQuad q 0x08) =
       if quadPresent s q then put 0 16 ([t0, t1, t2, t3].getD q.val 0).toNat ||| put 16 1 1 else s.reg (aQuad q 0x08)) ∧
  (∀ (q : Quad) (s : State), s.mapsOk = true → s.isReady = true → jugMay s q = true → bandTurn s q = false →
     bitAt (s.inUse 0x0160) 1 = true → rxWanted s q = true → s.quads[q].jug.gap ≠ 0 → gapNow s q = s.quads[q].jug.gap →
     s.quads[q].jug.gapAt + 16 ≤ s.ecyc → stepFits s q = true → synReady s q = true →
     ∃ t, exec (.receiveStepStart q) s = .next t ∧ t.quads[q].jug.stepFrom = some s.ecyc ∧
       (∀ p ∈ groupPorts s q, fld (t.reg (aPort p 0x12)) 4 0 =
         if s.quads[q].jug.steps = 0 then 0 else if s.quads[q].jug.steps = 1 then 6 else 12) ∧ t.car = s.car) ∧
  (∀ (q : Quad) (s : State), s.mapsOk = true →
     (∀ meas e, s.quads[q].jug.stepFrom = some e → e + 6144 ≤ s.ecyc → s.quads[q].jug.run = false →
       s.quads[q].jug.steps < 3 →
       ∃ t, exec (.receiveStepEnd q meas) s = .next t ∧ t.quads[q].jug.steps = s.quads[q].jug.steps + 1 ∧
         t.quads[q].jug.stepFrom = none ∧ fld (t.reg (aQuad q 0x09)) 3 0 = 0) ∧
     (∀ meas e, s.quads[q].jug.stepFrom = some e → e + 6144 ≤ s.ecyc → s.quads[q].jug.run = false →
       s.quads[q].jug.steps = 3 → ∃ t, exec (.receiveStepEnd q meas) s = .next t ∧ t.quads[q].jug.steps = 0 ∧
         t.quads[q].jug.stepFrom = none ∧ Judged s t q meas) ∧
     (0 < s.quads[q].jug.steps → s.quads[q].jug.run = false → s.quads[q].jug.seqAt + 245760000 ≤ s.ecyc →
       ∃ t, exec (.receiveSequenceExpiry q) s = .next t ∧ t.quads[q].jug.steps = 0 ∧ t.quads[q].jug.stepFrom = none) ∧
     (s.quads[q].jug.retryAt ≠ 0 → s.quads[q].jug.retryAt ≤ s.ecyc → exec (.rxRetryWaitExpiry q) s =
       .next (s.updQuad q (fun x => { x with jug := { x.jug with retryAt := 0 } }))))

/-- The Barker rows. BARKER_SYN_POWERUP: a quad's synthesiser is powered for its slots. BARKER_SLOT: an armed port bursts,
or its slot counts as skipped. BARKER_SLOT_END: a burst that has ramped down leaves its port without TX_EN but by its
carrier, and its group's tokens FREE; after the group's last slot of the period Barker lets go of its synthesiser, which
stays powered only where something else needs it. BARKER_COMPARE: the burst's Γ and its reading are recorded, the burst
counts as compared, and a first burst becomes the baseline. With a baseline and BARK clear, a Γ that exceeds the threshold
adds one to the run of such bursts, whose CONFIRM + 1st sets BARK, and leaves the baseline; any other ends the run, and the
baseline tracks it by BASE_TC; with BARK set nothing else changes. Barker's exact comparison is the model's reading (log
entry 51). -/
def Obligations.BarkerSlotsRunAndCompare : Prop :=
  (∀ s : State, s.mapsOk = true →
     (∀ q : Quad, s.bark.armed ≠ 0 → quadPresent s q = true → lead s q = q → s.quads[q].syn.barker = false →
       powerUpTime s q = true → ∃ t, exec (.barkerSynPowerup q) s = .next t ∧ t.quads[q].syn.barker = true ∧
         t.quads[q].syn.powered = true ∧ t.car = s.car) ∧
     (∀ p : Port, s.bark.armed.getLsbD p.val = true → slotAt s p ≤ s.ecyc → s.ecyc < slotAt s p + 122880 →
       s.ports[p].slotNo ≠ slotAt s p + 1 →
       ∃ t, exec (.barkerSlot p) s = .next t ∧ t.ports[p].slotNo = slotAt s p + 1 ∧
         (t.ports[p].burst = some (slotAt s p) ∧ t.quads[quadOf p].token = .barker ∨
           t.ports[p].burst = none ∧ t.reg (aPort p 0x2F) = (if s.reg (aPort p 0x2F) = 0xFFFFFFFF then 0xFFFFFFFF
             else s.reg (aPort p 0x2F) + 1) ∨ s.ports[p].burst.isSome = true)) ∧
     (∀ p : Port, s.bark.armed.getLsbD p.val = true → slotAt s p ≤ s.ecyc → s.ecyc < slotAt s p + 122880 →
       s.ports[p].slotNo ≠ slotAt s p + 1 → (∀ r ∈ groupPorts s (quadOf p), s.ports[r].burst = none) →
       slotSkips s p = false → ∃ t, exec (.barkerSlot p) s = .next t ∧ t.ports[p].burst = some (slotAt s p) ∧
         t.ports[p].compared = false ∧ bitAt (t.reg (aPort p 0x20)) 8 = true ∧
         (∀ q ∈ groupOf s (quadOf p), t.quads[q].token = .barker) ∧
         ∀ q : Quad, q ∉ groupOf s (quadOf p) → t.quads[q].token = s.quads[q].token) ∧
     (∀ q : Quad, ∃ t, exec (.barkerSlotEnd q) s = .next t ∧
       (∀ p ∈ groupPorts s q, ∀ e, s.ports[p].burst = some e →
         e + 122880 ≤ s.ecyc ∨ (∃ c, s.ports[p].burstCut = some c ∧ c + 240 ≤ s.ecyc) →
         t.ports[p].burst = none ∧ bitAt (t.reg (aPort p 0x20)) 8 = radiates s p ∧
           ∀ r ∈ groupOf s q, s.quads[r].token = .barker → t.quads[r].token = .free) ∧
       ∀ a b, quadPresent s q = true → lead s q = q → groupSlots s q = some (a, b) → b + 122880 ≤ s.ecyc →
         powerUpTime s q = false → t.quads[q].syn.barker = false ∧ t.quads[q].syn.powered =
           synWanted (s.updQuad q (fun x => { x with syn := { x.syn with barker := false } })) q)) ∧
  (∀ (p : Port) (gi gq : Int) (rl : Nat) (phase : BitVec 8) (s : State) (e : Nat), s.mapsOk = true →
     s.ports[p].burst = some e → e + 122656 ≤ s.ecyc → s.ports[p].compared = false →
     (∀ c, s.ports[p].burstCut = some c → e + 122640 ≤ c) →
     let g : Gamma := { re := gi, im := gq, exp := 30 }
     let c := s.inUse (aPort p 0x2C)
     let old := fld (s.reg (aPort p 0x2B)) 14 12
     ∃ t, exec (.barkerCompare p gi gq rl phase) s = .next t ∧ t.ports[p].compared = true ∧
       t.reg (aPort p 0x2E) = gammaWord g ∧ t.reg (aPort p 0x29) = antWord rl phase true ∧
       (s.ports[p].base = none → t.ports[p].base = some g ∧ t.reg (aPort p 0x2D) = gammaWord g) ∧
       ∀ b, s.ports[p].base = some b →
         let same := t.ports[p].base = some b ∧ t.reg (aPort p 0x2D) = s.reg (aPort p 0x2D)
         let track := trackBase b (gammaSub g b) (fld c 15 12)
         (bitAt (s.reg (aPort p 0x2B)) 8 = true → same ∧ t.reg (aPort p 0x2B) = s.reg (aPort p 0x2B)) ∧
         (bitAt (s.reg (aPort p 0x2B)) 8 = false → exceeds (gammaSub g b) (barkThr c) = true → same ∧
           fld (t.reg (aPort p 0x2B)) 14 12 = (old + 1) % 8 ∧
           bitAt (t.reg (aPort p 0x2B)) 8 = decide (fld c 9 8 + 1 ≤ old + 1)) ∧
         (bitAt (s.reg (aPort p 0x2B)) 8 = false → exceeds (gammaSub g b) (barkThr c) = false →
           fld (t.reg (aPort p 0x2B)) 14 12 = 0 ∧ (fld c 15 12 = 0 → same) ∧
           (fld c 15 12 ≠ 0 → t.ports[p].base = some track ∧ t.reg (aPort p 0x2D) = gammaWord track)))

/-- ST_ROUND and G_INVENTORY: each group that the command names has a new job of it, its selection is cleared, and the
ceiling's check is owed at dispatch + 24; the job of every other group stays. G_INVENTORY writes the link set it gives
to every group that it names, and to no other. That unused fields of an ACTION must be 0 is the model's
reading (log entry 84). -/
def Obligations.SequencesStartTheirJobs : Prop :=
  (∀ (k : Stamp) (s : State) (sl : Slot) (c : Instr) (iso : Bool),
     (c = .stRound k ∧ iso = false ∨ c = .gInventory k ∧ iso = true) → Starts c s sl →
     let named (q : Quad) : Bool := (fld (pw sl 0) 3 0).testBit q.val && lead s q == q
     ∃ t x, exec c s = .next t ∧ findSlot t k = some x ∧ x.phase = .executing ∧ x.effs = [(s.ecyc + 24, .check)] ∧
       x.waits = .air ∧ x.openSeqs = ((maskQuads (fld (pw sl 0) 3 0)).filter (fun q => lead s q == q)).length ∧
       (∀ q : Quad, named q = true → ∃ j, t.quads[q].job = some j ∧ j.stamp = k ∧ j.iso = iso ∧ j.host = sl.port ∧
         j.inRound = false ∧ j.beams = beamBytes sl (fld (pw sl 1) 29 24) ∧ j.sweeps = fld (pw sl 1) 23 16 ∧
         t.quads[q].sel = none) ∧
       (∀ q : Quad, named q = false → t.quads[q].job = s.quads[q].job) ∧ t.dir = s.dir ∧ t.fuse = s.fuse) ∧
  (∀ (k : Stamp) (s : State) (sl : Slot), Starts (.gInventory k) s sl → s.ring = false →
     ∃ t, exec (.gInventory k) s = .next t ∧ ∀ q : Quad, t.quads[q].link =
       if (fld (pw sl 0) 3 0).testBit q.val then invLink sl else s.quads[q].link)

/-- The single air commands: the quad has one new job of the command with its first step, and its first frame no earlier
than dispatch + 24, the carrier wait and T2 after the last exchange; the other quads' jobs stay. ST_SELECT, ST_RAW and the
ISO/IEC 18000-63 commands clear the selection; ST_READ, ST_WRITE, ST_SENSE and ST_HALT keep it as they start (ST_HALT clears
it when its reselection has succeeded: log entry 95). What the commands on a held selection do next: the tag's name and
ticket are those of the selection, and what is read, written or sensed is as the payload says. That every frame waits for
lock, carrier and a FIFO place is the model's reading (log entry 58). -/
def Obligations.AirCommandsStartTheirJob : Prop :=
  (∀ (k : Stamp) (s : State) (sl : Slot) (c : Instr) (step : AirStep) (keeps iso : Bool),
     (c, step, keeps, iso) ∈ [(Instr.stSelect k, AirStep.wake, false, false), (.stRead k, .reselect 0, true, false),
       (.stWrite k, .reselect 0, true, false), (.stHalt k, .reselect 0, true, false), (.stSense k, .reselect 0, true, false),
       (.stRaw k, .raw, false, false), (.gRead k, .gSelect 0, false, true), (.gWrite k, .gSelect 0, false, true),
       (.gLock k, .gSelect 0, false, true), (.gKill k, .gSelect 0, false, true), (.gRaw k, .raw, false, true)] →
     Starts c s sl →
     let q := quadField sl
     ∃ t x j, exec c s = .next t ∧ findSlot t k = some x ∧ x.phase = .executing ∧ x.waits = .air ∧
       t.quads[q].job = some j ∧ j.stamp = k ∧ j.iso = iso ∧ j.step = step ∧ j.host = sl.port ∧ j.opcode = hdrOpc sl.hdr ∧
       t.quads[q].next = some {
         notBefore := max s.quads[q].airAfter (max (s.ecyc + 24) (s.quads[q].carrierAt + if iso then 368640 else 122880)),
         past := false, ref := s.ecyc } ∧
       t.quads[q].sel = (if keeps then s.quads[q].sel else none) ∧
       (∀ r : Quad, r ≠ q → t.quads[r] = s.quads[r]) ∧ t.dir = s.dir ∧ t.regs = s.regs) ∧
  (∀ (k : Stamp) (s t : State) (sl : Slot) (h : Selection), s.quads[lead s (quadField sl)].sel = some h →
     (∀ c ∈ [Instr.stRead k, .stWrite k, .stSense k], Starts c s sl → exec c s = .next t →
       ∃ j, t.quads[quadField sl].job = some j ∧ j.want = some h.name ∧ j.ticket = h.ticket ∧ j.rid = h.rid ∧
         (c = .stRead k → j.st.action = 1 ∧ j.st.addr = fld (pw sl 0) 7 0 ∧ j.st.cnt = fld (pw sl 0) 11 8) ∧
         (c = .stWrite k → j.st.addr = fld (pw sl 0) 7 0 ∧ j.st.data = BitVec.ofNat 16 (fld (pw sl 1) 15 0)) ∧
         (c = .stSense k → j.st.action = 2 ∧ j.st.chan = fld (pw sl 0) 3 0)))

/-- ROUND_START, where no round of a lower quad is due in the same E-cycle: the ROUND counter advances, the group is in a
round whose number it is, and the round's first frame opens an exchange in this E-cycle; a Stamet round takes a RID that
differs from the last one's. STAMET_FRAME_SEND and ISO_FRAME_SEND: a frame that is due opens an exchange in this E-cycle
whose end reference is its length later, at a depth of 30 to 100 %, 80 % or more in ISO/IEC 18000-63. FRAME_END,
NOISE_PHASE_START, HUNT_START and NO_REPLY_DEADLINE take an exchange through its phases in order, each no earlier than its
E-cycle: a frame that draws no reply has its outcome at its end, a measured port takes its noise floor, referred to RXIN, as
the hunt begins, and with no frame that may still come to a verdict the finish phase ends at the deadline. ISO frames have
the layouts the model took from the standard (log entries 21 and 22, PRESUMED and DESIGN CHOICE). -/
def Obligations.RoundsAndFramesOpenExchanges : Prop :=
  (∀ (q : Quad) (s : State) (j : Job), jobOf s q = some j → roundJob j = true → j.inRound = false →
     frameDue s q j = true → s.patch.hold = none →
     (∀ r : Quad, r < lead s q → ∀ i, jobOf s r = some i → roundJob i = true → i.inRound = false → frameDue s r i = false) →
     ∃ t g x, exec (.roundStart q) s = .next t ∧ t.roundCtr = s.roundCtr + 1 ∧ t.quads[lead s q].job = some g ∧
       g.inRound = true ∧ g.roundNo = s.roundCtr + 1 ∧ g.stamp = j.stamp ∧ t.quads[lead s q].exch = some x ∧
       x.startAt = s.ecyc ∧ x.phase = .blanked ∧ t.quads[lead s q].next = none ∧
       (j.iso = false → ∀ r ∈ groupOf s q, g.rid ≠ s.quads[r].lastRid ∧ t.quads[r].lastRid = g.rid) ∧
       (j.iso = true → g.rid = j.rid ∧ ∀ r : Quad, t.quads[r].rid = s.quads[r].rid)) ∧
  (∀ (q : Quad) (s : State) (j : Job), jobOf s q = some j → laterDue s q j = true →
     ∃ t x, exec (if j.iso then .isoFrameSend q else .stametFrameSend q) s = .next t ∧ exchOf t q = some x ∧
       x.iso = j.iso ∧ x.startAt = s.ecyc ∧ x.phase = .blanked ∧ x.verdicts = [] ∧ x.valid = [] ∧
       x.endAt = s.ecyc + (if j.iso then isoLength j.g.link (isoFrame j).2.1 (isoFrame j).1
         else stLength j.st.tu (stFrame j).1) ∧
       30 ≤ x.depth ∧ x.depth ≤ 100 ∧ (j.iso = true → 80 ≤ x.depth) ∧
       t.quads[lead s q].next = none ∧ t.roundCtr = s.roundCtr ∧ t.dir = s.dir ∧ t.fuse = s.fuse) ∧
  (∀ (q : Quad) (s : State) (x : Exch), exchOf s q = some x →
     (x.phase = .blanked → x.endAt ≤ s.ecyc → ∃ t, exec (.frameEnd q) s = .next t ∧ exchOf t q = some (if x.expects = .none
       then { x with phase := .past, outAt := some x.endAt } else { x with phase := .settle }) ∧
       (s.mapsOk = true → ∀ p ∈ groupPorts s q, t.inUse (aPort p 0x10) = s.reg (aPort p 0x10) ∧
         t.inUse (aPort p 0x11) = s.reg (aPort p 0x11)) ∧
       (∀ r : Quad, r ≠ lead s q → t.quads[r] = s.quads[r]) ∧ t.dir = s.dir ∧ t.car = s.car) ∧
     (x.phase = .settle → x.endAt + 2949 ≤ s.ecyc → exec (.noisePhaseStart q) s =
       .next (s.updQuad (lead s q) (fun y => { y with exch := some { x with phase := .noise } }))) ∧
     (∀ noise, x.phase = .noise → x.endAt + 4424 ≤ s.ecyc → ∃ t, exec (.huntStart q noise) s = .next t ∧
       exchOf t q = some { x with phase := .hunt } ∧
       (∀ n, noise = [n] → n.port ∈ groupPorts s q → portPresent s n.port = true → n.energies ≠ [] →
         t.ports[n.port].noise = noiseFloor s n.port n.energies) ∧ t.dir = s.dir ∧ t.car = s.car) ∧
     (x.phase = .hunt → x.deadline ≤ s.ecyc → ∃ t, exec (.noReplyDeadline q) s = .next t ∧ exchOf t q = some { x with
         phase := if x.expects ≠ .bit ∧ (groupPorts s q).all (fun p =>
             !mayComplete s x s.ports[p].recv && !mayComplete s x s.ports[p].standby) = true then .past else .finish } ∧
       (∀ r : Quad, r ≠ lead s q → t.quads[r] = s.quads[r]) ∧ t.ports = s.ports ∧ t.dir = s.dir ∧ t.car = s.car))

/-- AGC_BLOCK, 160 E-cycles after the last, of 16 samples with the gain free and automatic: the gain takes the step of R160
and R231 for the powers before and behind the digital canceller, moves by at most 6, and stays within 0 to 30; a held
canceller keeps its estimate while the gain stays, and what it leaves of the samples is kept behind the decimator.
RFC_UPDATE, as often: the weight moves by the loop's change within int12 (0 with RFC_EN = 0), with JAM and RESID. Earlier
than that neither moves anything. A finish phase that no frame keeps open is over before either. RFC_SAT: the saturation
flag after 16 updates at a limit. OVERLOAD: the port is out of the exchange with its flag set, and the finish phase ends
where no other port holds a frame that may still come to a verdict. The fixed point of levels, and the loop's change, are
the model's (log entries 61 and 64). -/
def Obligations.GainAndCancellersStayInRange : Prop :=
  (∀ (p : Port) (samples : List Cx) (s : State), s.mapsOk = true → fieldIsOn s (quadOf p) = true → portPresent s p = true →
     samples.length = 16 → s.ports[p].agcAt ≤ s.ecyc →
     let u := checkFinish s (quadOf p)
     bitAt (u.reg (aPort p 0x12)) 5 = false → s.quads[lead s (quadOf p)].jug.stepFrom = none →
     bitAt (s.inUse (aPort p 0x12)) 15 = false → gainOf s p ≤ 30 →
     let r := frontEnd u p samples
     ∃ t, exec (.agcBlock p samples) s = .next t ∧ gainOf t p ≤ 30 ∧ gainOf s p ≤ gainOf t p + 6 ∧
       gainOf t p ≤ gainOf s p + 6 ∧
       gainOf t p = (agcStep (gainOf s p) (powerOf 4294967296 r.1) (powerOf 1 samples)).2.2 ∧
       t.ports[p].agcAt = s.ecyc + 160 ∧ t.ports[p].buf = keptBlock u p (s.ecyc - 160) r.1 ++ s.ports[p].buf ∧
       (dsjHeld u p = false → t.ports[p].dsj = r.2) ∧
       (dsjHeld u p = true → gainOf t p = gainOf s p → t.ports[p].dsj = s.ports[p].dsj) ∧
       t.quads = u.quads ∧ t.dir = s.dir) ∧
  (∀ (p : Port) (s : State), s.mapsOk = true →
     let u := checkFinish s (quadOf p)
     (∀ samples, s.ecyc < s.ports[p].agcAt → exec (.agcBlock p samples) s = .next s) ∧
     (∀ e, s.ecyc < s.ports[p].rfcAt → exec (.rfcUpdate p e) s = .next u) ∧
     (∀ e, tracks u p = true → s.ports[p].rfcAt ≤ s.ecyc →
       let c := s.reg (aPort p 0x08)
       let w := s.reg (aPort p 0x09)
       let d := rfcChange (fld c 3 1) e
       let a := if bitAt c 0 then weight (sext 12 (fld w 11 0) + d.1) else 0
       let b := if bitAt c 0 then weight (sext 12 (fld w 27 16) + d.2) else 0
       ∃ t, exec (.rfcUpdate p e) s = .next t ∧ t.ports[p].rfcAt = s.ecyc + 160 ∧
         t.reg (aPort p 0x09) = put 0 12 (toBits 12 a) ||| put 16 12 (toBits 12 b) ∧
         fld (t.reg (aPort p 0x0C)) 7 0 = jamByte (Config.jamError s.free) a b ∧
         fld (t.reg (aPort p 0x0C)) 15 8 = residByte s p e ∧ t.quads = u.quads) ∧
     (16 ≤ s.ports[p].rfcRunI ∨ 16 ≤ s.ports[p].rfcRunQ →
       exec (.rfcSat p) s = .next (s.setRegBit (aPort p 0x0B) 8 true)) ∧
     (∀ x dbm, portExch s p = some x → listening x = true → -2000 < dbm → s.ports[p].ovld = false → portPresent s p = true →
       ∃ t, exec (.overload p dbm) s = .next t ∧ t.ports[p].ovld = true ∧ t.ports[p].recv = none ∧
         t.ports[p].standby = none ∧ bitAt (t.reg (aPort p 0x0B)) 9 = true ∧
         portExch t p = some (if x.phase = .finish ∧ x.expects ≠ .bit ∧ (groupPorts s (quadOf p)).all (fun r =>
             r == p || !mayComplete s x s.ports[r].recv && !mayComplete s x s.ports[r].standby) = true
           then { x with phase := .past } else x) ∧
         (∀ r : Quad, r ≠ lead s (quadOf p) → t.quads[r] = s.quads[r]) ∧
         (∀ r : Port, r ≠ p → t.ports[r] = s.ports[r])))

/-- PREAMBLE_LOCK freezes the gain. On a free chain the lock takes it, with its power, its allowance and no sync yet. On a
chain with a frame of another timing that locked in an earlier E-cycle, it takes the chain where it stands M above that
frame inside the capture window, which counts as CAPT; above it outside the window it counts as late; and in every other
case it is held as standby where none is, or where it stands M above the one held. Symbols that make no lock change nothing.
SYNC_DECLARATION gives the receiving frame its sync: in a Stamet exchange on the sync word, in an ISO/IEC 18000-63 one with
a beginning inside T1, and in both by the deadline and inside the allowance; a standby that syncs takes the chain from a
frame that has not. A lock without sync past its allowance, and a pilot quality below PQ_THR, count one false start. That a
lock's E-cycle is its row's, and what steadiness of phase is, are the model's readings (log entries 52 and 65). -/
def Obligations.ChainsLockSyncAndFalseStart : Prop :=
  ∀ (p : Port) (s : State) (x : Exch), s.mapsOk = true → portExch s p = some x →
    let more (w : Word) : Word := if w = 0xFFFFFFFF then 0xFFFFFFFF else w + 1
    let e := s.ecyc - (x.chip + 24)
    (∀ tz v w, x.phase = .hunt → x.expects ≠ .bit → s.ports[p].ovld = false → portPresent s p = true →
      s.ecyc ≤ x.deadline → lockOf s p x v = some w →
      let y := candOf s p x tz v w
      let held := match s.ports[p].standby with
        | none => some y
        | some z => if standsAbove s p y.power (powerNow s p x z) then some y else some z
      ∃ t, exec (.preambleLock p tz v) s = .next t ∧ bitAt (t.reg (aPort p 0x12)) 5 = true ∧ t.quads = s.quads ∧
        (s.ports[p].recv = none → t.ports[p].recv = some y ∧ y.tz = tz ∧ y.lockAt = s.ecyc ∧ y.power = meanPower s p w ∧
          y.sync = none ∧ y.due = s.ecyc + (if x.iso then symbolsAt x.link v.freq (v.left + 2)
            else max 21 (24 - preMin s p) * 16 * x.chip)) ∧
        ∀ c, s.ports[p].recv = some c → c.tz ≠ tz → c.lockAt ≠ s.ecyc → sameTiming x c.timing s.ecyc = false →
          let above := standsAbove s p y.power (powerNow s p x c)
          (above = true → inWindow s p x c = true → t.ports[p].recv = some y ∧ t.ports[p].standby = none ∧
            t.ports[p].capt = true ∧ t.reg (aPort p 0x18) = more (s.reg (aPort p 0x18))) ∧
          (above = true → inWindow s p x c = false → t.ports[p].recv = some c ∧ t.ports[p].standby = held ∧
            t.reg (aPort p 0x1B) = more (s.reg (aPort p 0x1B))) ∧
          (above = false → t.ports[p].recv = some c ∧ t.ports[p].standby = held ∧
            t.reg (aPort p 0x18) = s.reg (aPort p 0x18) ∧ t.reg (aPort p 0x1B) = s.reg (aPort p 0x1B))) ∧
    (∀ tz v, lockOf s p x v = none → exec (.preambleLock p tz v) s = .next s) ∧
    (∀ c, s.ports[p].recv = some c → listening x = true → syncTaken s p x c.tz e c = true →
      ∃ t d, exec (.syncDeclaration p c.tz) s = .next t ∧ t.ports[p].recv = some d ∧
        d.sync = some e ∧ d.syncTb = stampAt e ∧ d.lockAt = c.lockAt ∧
        d.power = c.power ∧ t.regs = s.regs ∧ t.quads = s.quads) ∧
    (∀ c b, s.ports[p].recv = some c → s.ports[p].standby = some b → c.tz ≠ b.tz → listening x = true →
      syncTaken s p x b.tz e b = true → ∃ t, exec (.syncDeclaration p b.tz) s = .next t ∧
        (c.sync = none → t.ports[p].recv = some (synced s b e) ∧ t.ports[p].standby = some c) ∧
        (c.sync.isSome = true → t.ports[p].recv = some c ∧ t.ports[p].standby = some (synced s b e)) ∧
        t.regs = s.regs ∧ t.quads = s.quads) ∧
    (∀ c, s.ports[p].recv = some c → c.sync = none → heard x = true →
      c.due + x.chip + 24 ≤ s.ecyc → ∃ t, exec (.falseStart p c.tz) s = .next t ∧
        t.ports[p].falseSeen = true ∧ t.ports[p].standby = none ∧ (x.phase = .hunt → t.quads = s.quads) ∧
        (∀ r : Port, r ≠ p → t.ports[r] = s.ports[r]) ∧ t.reg (aPort p 0x17) = more (s.reg (aPort p 0x17))) ∧
    (∀ c f, s.ports[p].recv = some c → c.sync = some f → x.iso = false → listening x = true →
      processedAt c (f + 256 * x.chip) + 2 * x.chip + 40 ≤ s.ecyc →
      (qualityOf s p x c f).atLeast (fld (s.inUse (aPort p 0x11)) 15 12) = false →
      ∃ t, exec (.pilotQualityAbort p) s = .next t ∧
        t.ports[p].falseSeen = true ∧ t.ports[p].standby = none ∧ (x.phase = .hunt → t.quads = s.quads) ∧
        (∀ r : Port, r ≠ p → t.ports[r] = s.ports[r]) ∧ t.reg (aPort p 0x17) = more (s.reg (aPort p 0x17)))

/-- PORT_CRC_VERDICT: what the chain makes of the frame joins the exchange of a port that takes part, the readings of its
known symbols are recorded, and a frame that fails counts one CRC failure. COMBINED_VERDICT: V is the outcome instant, the
combined verdicts leave, no valid frame is lost, and the names that enter the directory FIFO keep those already there.
BIT_REPLY_OUTCOME: the node outcome of R163 from the greatest mean energies that both templates have in the ports' samples
with the thresholds in use, at the classifier's instant, where the finish phase ends and the gains are released; with no
port that takes part it is NONE. Which chip ends a frame, the exact equaliser and the loops' gains are the model's (log
entries 53, 62 and 63). -/
def Obligations.VerdictsAreTakenAndCombined : Prop :=
  (∀ (p : Port) (rx : RxInput) (s : State) (x : Exch) (c : Cand) (e : Nat), s.mapsOk = true →
     portExch s p = some x → s.ports[p].recv = some c → c.sync = some e → listening x = true →
     let d := decoded s p x c e rx
     processedAt c (replyEnd s x e d.rx) + 2 * x.chip + 40 ≤ s.ecyc →
     ∃ t y, exec (.portCrcVerdict p rx) s = .next t ∧ exchOf t (quadOf p) = some y ∧
       y.verdicts = x.verdicts ++ (if takesPart s p then [verdictOf s p x c e d] else []) ∧
       t.reg (aPort p 0x16) = trackWord x c d ∧ fld (t.reg (aPort p 0x15)) 15 8 = snrByte p x c d ∧
       (verdictOk x d.rx = true → t.ports[p].valid = true) ∧ (verdictOk x d.rx = false → t.ports[p].crcFail = true ∧
         t.reg (aPort p 0x19) = (if s.reg (aPort p 0x19) = 0xFFFFFFFF then 0xFFFFFFFF else s.reg (aPort p 0x19) + 1))) ∧
  (∀ (q : Quad) (taps : List (List PortTap)) (s : State) (j : Job) (x : Exch) (w : Verdict), jobOf s q = some j →
     exchOf s q = some x → x.verdicts.head? = some w → w.at_ + 4 * x.chip + 8 ≤ s.ecyc →
     ∃ t y, exec (.combinedVerdict q taps) s = .next t ∧ exchOf t q = some y ∧ y.outAt = some (w.at_ + 4 * x.chip + 8) ∧
       y.verdicts = x.verdicts.filter (fun v => !(combination x).contains v) ∧
       (∀ v ∈ combination x, v.ok = true → ∃ f ∈ y.valid, f.rx = v.rx) ∧
       (∀ f ∈ x.valid, f ∈ y.valid) ∧ (∀ f ∈ s.dir.fifo, f ∈ t.dir.fifo) ∧ t.dir.entries = s.dir.entries ∧ t.regs = s.regs) ∧
  (∀ (q : Quad) (s : State) (x : Exch), s.mapsOk = true → exchOf s q = some x → x.expects = .bit →
     x.phase = .finish → x.bit = none → x.deadline + x.chip + 24 ≤ s.ecyc →
     let ps := (groupPorts s q).filter (takesPart s)
     let a := (peakOf s ps x energyC0).1
     let b := (peakOf s ps x energyC1).1
     let up := decide (a.num * b.den < b.num * a.den)
     let hi := if up then b else a
     let lo := if up then a else b
     ∃ t y, exec (.bitReplyOutcome q) s = .next t ∧ exchOf t q = some y ∧ y.phase = .past ∧
       y.outAt = some (x.deadline + x.chip + 24) ∧ (ps = [] → y.bit = some .none) ∧
       (hi.atLeast (bitThr s q) = false → y.bit = some .none) ∧
       (ps ≠ [] → hi.atLeast (bitThr s q) = true → lo.atLeast (bitThr s q) = false ∨ (lo.over hi).atLeast (-collDr s q) = false →
         y.bit = some (.one up)) ∧
       (ps ≠ [] → hi.atLeast (bitThr s q) = true → lo.atLeast (bitThr s q) = true → (lo.over hi).atLeast (-collDr s q) = true →
         y.bit = some .both) ∧
       (∀ p ∈ groupPorts s q, bitAt (t.reg (aPort p 0x12)) 5 = false) ∧ t.ports = s.ports ∧ t.dir = s.dir)

/-- EXCHANGE_OUTCOME: at O + 8 the exchange is over and every chain of the group is free. DWELL_EXPIRE: no frame of the
round is sent any more; the job's DWELL counts as hit where one was still to be sent. ROUND_END: a single selection ends
with its command's reply; a sequence that has had its last round leaves the quad without a job, and any other is out of its
round with its next frame planned. That a lock still inside its allowance then is dropped without counting, and when a round
cut by DWELL ends, are the model's readings (log entries 36 and 52). -/
def Obligations.ExchangesAndRoundsEnd : Prop :=
  (∀ (q : Quad) (s : State) (j : Job) (x : Exch) (o : Nat), jobOf s q = some j → exchOf s q = some x →
     outcomeInstant s q x = some o → o + 8 ≤ s.ecyc → ∃ t, exec (.exchangeOutcome q) s = .next t ∧ exchOf t q = none ∧
       (∀ p ∈ groupPorts s q, t.ports[p].recv = none ∧ t.ports[p].standby = none) ∧
       (∀ r : Quad, t.quads[r].holder = s.quads[r].holder) ∧ t.fuse = s.fuse) ∧
  (∀ (q : Quad) (s : State) (j : Job) (d : Nat), jobOf s q = some j → j.inRound = true → j.dwellHit = false →
     j.dwellAt = some d → d ≤ s.ecyc → ∃ t g, exec (.dwellExpire q) s = .next t ∧ jobOf t q = some g ∧
       frameDue t q g = false ∧
       g.dwellHit = (match s.quads[lead s q].next with | some n => !n.past | none => true) ∧
       t.regs = s.regs ∧ t.dir = s.dir ∧ t.car = s.car) ∧
  (∀ (q : Quad) (s : State) (j : Job) (n : NextFrame), jobOf s q = some j → s.quads[lead s q].next = some n → n.past = true →
     s.quads[lead s q].exch = none → n.notBefore ≤ s.ecyc → ∃ t, exec (.roundEnd q) s = .next t ∧
       (j.opcode = 0x41 ∨ nextRound j = none → jobOf t q = none) ∧
       (j.opcode ≠ 0x41 → (nextRound j).isSome = true → ∃ g m, jobOf t q = some g ∧ g.inRound = false ∧
         t.quads[lead s q].next = some m ∧ m.past = false) ∧ t.roundCtr = s.roundCtr ∧ t.dir = s.dir ∧ t.fuse = s.fuse)

/-- An insertion loses no name: where a placement of a new name succeeds, every name that could be found before is found
after it, with the same entry, and so is the new one (R133, R136). A failed insertion changes no entry (R137). That
the eviction counter skips 0x3FFFF is the model's reading (log entry 24). -/
def Obligations.InsertionsLoseNoName : Prop :=
  (∀ (v : Variant) (m : SMap Entry) (c : BitVec 2) (e : Entry), msorted 0 m = true →
     (∀ h x, mfind m h = some x → findName v m x.name = some h) → mfind m noEntry = none →
     (place v m c e).handle.isSome = true → (place v m c e).found = false →
       (∃ h, findName v (place v m c e).entries e.name = some h ∧ mfind (place v m c e).entries h = some e) ∧
       ∀ h x, mfind m h = some x → ∃ g, findName v (place v m c e).entries x.name = some g ∧
         mfind (place v m c e).entries g = some x) ∧
  (∀ (v : Variant) (m : SMap Entry) (c : BitVec 2) (e : Entry), msorted 0 m = true →
     (∀ h x, mfind m h = some x → findName v m x.name = some h) → mfind m noEntry = none →
     (place v m c e).handle = none → (place v m c e).entries = m ∧ (place v m c e).found = false)

/-- BEARING_FIT: the update at the head of the FIFO starts, its fit ends 1,200 E-cycles after U, and the FIFO keeps the
rest in order. DIRECTORY_STEP on a name that is known after what its reads found, with no record due: VALID and SEEN set,
EXPECTED kept, the time, port and round of the sighting, SEEN_COUNT one more and held at 65,535; no other entry changes
but by an error of a read, and reads that find none change nothing. On a name that is not known: the directory and the
eviction counter are those of the name's placement, with the sighting in the name's entry alone; a placement that fails
changes no entry and sets SYS_ERR.DIR_FULL. ACTION_RECORD: the record of an action whose name has its handle is queued to
the owning host when it is ready, or dropped where its queue has no room, and it waits no more. That the record is queued
one E-cycle after the write is the model's reading (log entry 33), and so is that the errors of a step's reads come with
it as its operands (log entry 27). -/
def Obligations.SightingsUpdateTheDirectory : Prop :=
  (∀ (s : State) (x : Sight) (r : List Sight), s.dir.fifo = x :: r → s.dir.upd = none →
     max x.vAt s.dir.updFree ≤ s.ecyc → ∃ t u, exec .bearingFit s = .next t ∧ t.dir.fifo = r ∧ t.dir.upd = some u ∧
       u.s = x ∧ u.fitEnd = max x.vAt s.dir.updFree + 1200 ∧ (Config.hasBearing s.variant = false → u.az = 0x8000 ∧ u.el = 0x8000) ∧
       t.dir.entries = s.dir.entries ∧ t.regs = s.regs ∧ t.quads = s.quads) ∧
  (∀ (ecc : List (Nat × EccErr)) (s : State) (u : Upd) (h : Nat) (e : Entry), s.mapsOk = true → s.dir.upd = some u →
     s.dir.record = none → (∀ c, s.dir.scan = some c → c.ecc = []) →
     let r := (eccPath ecc.length s (freshEntry u.s.name false) ecc).1
     findName s.variant r.dir.entries u.s.name = some h → mfind r.dir.entries h = some e → (stepPlan r u).2 ≤ s.ecyc →
     stepBlocked r (stepPlan r u).1 = false →
     ∃ t g, exec (.directoryStep ecc) s = .next t ∧ mfind t.dir.entries h = some g ∧ g.name = e.name ∧
       g.flags.getLsbD 15 = true ∧ g.flags.getLsbD 13 = true ∧ g.flags.getLsbD 14 = e.flags.getLsbD 14 ∧
       g.lastSeen = u.s.stamp ∧ g.bestPort = BitVec.ofNat 8 u.s.best.val ∧ g.rssi = u.s.rssi ∧
       g.seen = (if e.seen = 0xFFFF then 0xFFFF else e.seen + 1) ∧ g.round = u.s.round.getD s.roundCtr ∧
       (∀ b, b ≠ h → mfind t.dir.entries b = mfind r.dir.entries b) ∧ t.dir.upd = none ∧ t.dir.evict = s.dir.evict) ∧
  (∀ (ecc : List (Nat × EccErr)) (s : State) (u : Upd), s.mapsOk = true → s.dir.upd = some u → s.dir.record = none →
     (∀ c, s.dir.scan = some c → c.ecc = []) →
     let r := (eccPath ecc.length s (freshEntry u.s.name false) ecc).1
     let p := (stepPlan r u).1
     findName s.variant r.dir.entries u.s.name = none → (stepPlan r u).2 ≤ s.ecyc → stepBlocked r p = false →
     ∃ t, exec (.directoryStep ecc) s = .next t ∧ t.dir.upd = none ∧ t.dir.evict = p.evict ∧
       (∀ h, p.handle = some h → ∃ e, mfind p.entries h = some e ∧ e.name = u.s.name ∧
         mfind t.dir.entries h = some (updateEntry u (u.s.round.getD s.roundCtr) e) ∧
         ∀ b, b ≠ h → mfind t.dir.entries b = mfind p.entries b) ∧
       (p.handle = none → t.dir.entries = r.dir.entries ∧ bitAt (t.reg aSysErr) errDirFull = true)) ∧
  (∀ (s : State) (reads : List Nat) (x : Entry), eccReads s reads [] = s ∧ eccPath 0 s x [] = (s, [])) ∧
  (∀ (q : Quad) (s : State) (a : ActRec) (r : List ActRec) (h : Nat), s.dir.record = none → s.dir.acts = a :: r →
     a.group = lead s q → a.handle = some h → a.readyAt ≤ s.ecyc → ∃ t, exec (.actionRecord q) s = .next t ∧ t.dir.acts = r ∧
       (recordRoom s a.host 2 = true → ∃ u, t.hosts[a.host].queue = s.hosts[a.host].queue ++ [u] ∧ u.ukind = 6 ∧
         u.status = a.status ∧ u.body.length = 5 + a.data.length) ∧
       (recordRoom s a.host 2 = false → t.hosts = s.hosts) ∧ t.dir.entries = s.dir.entries)

/-- DIR_SCRUB in an idle directory cycle: no error changes nothing, a single-bit error counts, a double-bit error empties
the bucket, sets SYS_ERR.DIR_ECC and leaves every other bucket as it is. SCAN_UNIT_QUEUE: a unit's worth of items that
the scan has read leaves it as one reply unit with MORE set, where a place is free; without one the scan pauses. When
a scan has read a bucket is the model's reading (log entry 25), and so is that an error comes as an operand of the command
whose read meets it, here of the scrub (log entry 27). -/
def Obligations.ScrubAndScans : Prop :=
  (∀ (b : Nat) (s : State), s.mapsOk = true → s.isReady = true → dirStepBusy s = false → s.dir.freeAt ≤ s.ecyc →
     b < Config.buckets s.variant → exec (.dirScrub b .none) s = .next s ∧ exec (.dirScrub b .single) s = .next (bump s 0x0102) ∧
       ∃ t, exec (.dirScrub b .double) s = .next t ∧ bitAt (t.reg aSysErr) 7 = true ∧
         ∀ h, mfind t.dir.entries h = if h / 4 = b then none else mfind s.dir.entries h) ∧
  (∀ (s : State) (c : Scan) (sl : Slot), s.dir.scan = some c → findSlot s c.stamp = some sl → c.per ≤ c.items.length →
     0 < c.per → scanReadAt c (((c.items.take c.per).getLast?.map (·.2)).getD 0) + 1 ≤ s.ecyc → hdrQuiet sl.hdr = false →
     (0 < placesFree s sl.port → ∃ t d u, exec .scanUnitQueue s = .next t ∧ t.dir.scan = some d ∧
       d.items = c.items.drop c.per ∧ d.pauseFrom = none ∧ t.hosts[sl.port].queue = s.hosts[sl.port].queue ++ [u] ∧
       u.more = true ∧ u.order = sl.stamp ∧ t.dir.entries = s.dir.entries) ∧
     (placesFree s sl.port = 0 → c.pauseFrom = none → exec .scanUnitQueue s =
       .next { s with dir := { s.dir with scan := some { c with pauseFrom := some s.ecyc } } }))

/-- DIR_LOOKUP, DIR_CLEAR and DIR_STATS: the reply is cut at dispatch, after what the reads found, DIR_CLEAR empties, unsees
or removes in that one step, and a lookup changes no entry; COMMAND_COMPLETE ends each in the E-cycle it owes, 38, 0 and
8 later. DIR_LOAD owes one placement for each of its names, at least 46 E-cycles apart, and COMMAND_COMPLETE makes the last
of them past the errors its reads meet: the name is in the directory with EXPECTED set, at the handle its reply gives, or
it counts as failed with DIR_FULL. DIR_STREAM and DIR_MISSING start one scan each over the entries their filters keep, and
change none at dispatch: the errors its reads will find wait in it; COMMAND_COMPLETE ends the command once every bucket has
been read, with the items that are left in its final unit. What a scan holds and when it has read a bucket are the model's
readings (log entry 25), and so is how the errors come in (log entry 27). -/
def Obligations.DirectoryCommandsCutAtDispatch : Prop :=
  (∀ (k : Stamp) (ecc : List (Nat × EccErr)) (s : State) (sl : Slot),
     (Starts (.dirLookup k ecc) s sl →
       let b := bucketsOf s.variant (nameAt sl 0)
       let r := (eccReads s [b.1, b.2] ecc).dir.entries
       ∃ t x, exec (.dirLookup k ecc) s = .next t ∧ findSlot t k = some x ∧
       x.effs = [(s.ecyc + 38, .none)] ∧ t.dir.entries = r ∧ t.dir.freeAt = max s.dir.freeAt (s.ecyc + 39) ∧
       (findName s.variant r (nameAt sl 0) = none → x.body = 0x0003FFFF :: List.replicate 8 0) ∧
       ∀ h e, findName s.variant r (nameAt sl 0) = some h → mfind r h = some e →
         x.body = (put 31 1 1 ||| put 0 18 h) :: entryWords e) ∧
     (Starts (.dirClear k) s sl → ∃ t x, exec (.dirClear k) s = .next t ∧ findSlot t k = some x ∧
       x.effs = [(s.ecyc, .none)] ∧ x.body = [BitVec.ofNat 32 (s.dir.entries.length - t.dir.entries.length)] ∧
       (fld (pw sl 0) 1 0 = 0 → t.dir.entries = []) ∧
       (fld (pw sl 0) 1 0 = 1 → ∀ h e, (h, e) ∈ t.dir.entries → e.flags.getLsbD 13 = false) ∧
       (fld (pw sl 0) 1 0 = 2 → t.dir.entries = s.dir.entries.filter (fun e => e.2.flags.getLsbD 14)) ∧ t.regs = s.regs) ∧
     (Starts (.dirStats k) s sl → ∃ t x, exec (.dirStats k) s = .next t ∧ findSlot t k = some x ∧
       x.effs = [(s.ecyc + 8, .none)] ∧ x.body.head? = some (BitVec.ofNat 32 s.dir.entries.length) ∧ x.body.length = 7 ∧
       t.dir.entries = s.dir.entries ∧ (bitAt (pw sl 0) 0 = true → t.dir.fulls = 0 ∧ t.dir.eccEmptied = 0) ∧
       (bitAt (pw sl 0) 1 = true → t.dir.satFulls = false ∧ t.dir.satEcc = false))) ∧
  (∀ (k : Stamp) (ecc : List (Nat × EccErr)) (s : State) (sl : Slot),
     (Starts (.dirLoad k ecc) s sl → ∃ t x, exec (.dirLoad k ecc) s = .next t ∧ findSlot t k = some x ∧
       x.effs.length = loadCount sl ∧ x.effs.head?.map (·.2) = some (.loadName 0 ecc) ∧ x.body.length = 4 + loadCount sl ∧
       (∀ i, i < loadCount sl → ∃ d e, x.effs[i]? = some (d, .loadName i e) ∧ s.ecyc + 46 * (i + 1) ≤ d ∧ ∀ z ∈ e, z ∈ ecc) ∧
       t.dir.entries = s.dir.entries) ∧
     (Starts (.dirStream k ecc) s sl → ∃ t c x, exec (.dirStream k ecc) s = .next t ∧ t.dir.scan = some c ∧ c.stamp = k ∧
       c.per = 27 ∧ c.beginAt = s.ecyc ∧
       c.items = ((dirNow s).filter (fun e => streamKeeps (fld (pw sl 0) 1 0) e.2)).map (fun e =>
         (BitVec.ofNat 32 e.1 :: entryWords e.2, e.1 / 4)) ∧
       (∀ x, x ∈ c.ecc ↔ x ∈ ecc ∧ x.1 < Config.buckets s.variant) ∧
       findSlot t k = some x ∧ x.waits = .scan ∧ t.dir.entries = s.dir.entries) ∧
     (Starts (.dirMissing k ecc) s sl →
       let m := dirNow s
       ∃ t c x, exec (.dirMissing k ecc) s = .next t ∧ t.dir.scan = some c ∧ c.stamp = k ∧ c.per = 62 ∧ c.beginAt = s.ecyc ∧
       (∀ i ∈ c.items, ∃ h e, (h, e) ∈ m ∧ e.flags.getLsbD 14 = true ∧ i = (BitVec.ofNat 32 h :: nameWords e.name, h / 4)) ∧
       (∀ h e, (h, e) ∈ m → e.flags.getLsbD 14 = true → e.flags.getLsbD 13 = false →
         (BitVec.ofNat 32 h :: nameWords e.name, h / 4) ∈ c.items) ∧
       (∀ x, x ∈ c.ecc ↔ x ∈ ecc ∧ x.1 < Config.buckets s.variant) ∧
       findSlot t k = some x ∧ x.waits = .scan ∧ t.dir.entries = s.dir.entries)) ∧
  (∀ (k : Stamp) (ecc : List (Nat × EccErr)) (s : State) (sl : Slot) (d i : Nat), s.mapsOk = true → s.tb.run = true →
     Due s k sl d (.loadName i ecc) [] → sl.waits = .nothing → sl.early = [] →
     let n := nameAt sl (1 + 3 * i)
     let u := (eccPath ecc.length s (freshEntry n true) ecc).1
     let r := place s.variant u.dir.entries u.dir.evict (freshEntry n true)
     ∃ t x, exec (.commandComplete k) s = .next t ∧ findSlot t k = some x ∧ (x.phase = .completed ∨ x.paused = true) ∧
       (∀ h e, r.handle = some h → mfind r.entries h = some e → x.status = sl.status ∧
         mfind t.dir.entries h = some { e with flags := e.flags ||| 0x4000 } ∧
         (∀ b, b ≠ h → mfind t.dir.entries b = mfind r.entries b)) ∧
       (r.handle = none → x.status = stDirFull ∧ t.dir.entries = u.dir.entries ∧ bitAt (t.reg aSysErr) errDirFull = true)) ∧
  (∀ (k : Stamp) (s : State) (sl : Slot) (c : Scan), findSlot s k = some sl → sl.phase = .executing → sl.paused = false →
     sl.effs = [] → sl.waits = .scan → sl.early = [] → s.dir.scan = some c → c.stamp = k → c.items.length < c.per →
     c.beginAt + 8 + 4 * Config.buckets s.variant + c.paused ≤ s.ecyc →
     ∃ t x, exec (.commandComplete k) s = .next t ∧ findSlot t k = some x ∧ t.dir.scan = none ∧
       x.body = c.items.flatMap (·.1) ∧ x.status = sl.status ∧
       (x.phase = .completed ∧ x.doneAt = c.beginAt + 8 + 4 * Config.buckets s.variant + c.paused ∨ x.paused = true) ∧
       t.dir.entries = s.dir.entries ∧ t.regs = s.regs)

/-- Words of an absent port or quad, in their banks and among the words 0x0150 + q of SYS_RXCMB, read 0 and take no write,
and neither access changes anything; ID_PART reads the part number of the variant. -/
def Obligations.AbsentWordsReadZeroAndIgnoreWrites : Prop :=
  ∀ (h : HostPort) (a : BitVec 16) (v : Word) (s : State),
    (∀ q, regQuad a.toNat = some q ∨ 0x0150 ≤ a.toNat ∧ a.toNat < 0x0154 ∧ q = a.toNat - 0x0150 → Config.quads s.variant ≤ q →
      peek s h a.toNat = 0 ∧ readEffects s h a.toNat = s ∧ exec (.registerWrite h a v) s = .next s ∧
        exec (.rclReadClear h a) s = .next s) ∧
    peek s h 1 = (match s.fuse.variant with | .cx1664 => 0x00001664 | .cx0832 => 0x00000832 | .cx0416 => 0x00000416)

/-- Handles have 18 bits, a handle at or above the entry count names no entry, and 0x3FFFF never does: a placement in a
directory that holds nothing there gives such a handle to no name and writes nothing there. That the eviction counter
skips 0x3FFFF is the model's reading (log entry 24). -/
def Obligations.HandlesNameOnlyEntries : Prop :=
  ∀ (v : Variant) (m : SMap Entry) (c : BitVec 2) (e : Entry), msorted 0 m = true →
    (∀ h, 4 * Config.buckets v ≤ h ∨ h = 0x3FFFF → mfind m h = none) →
    let r := place v m c e
    (∀ h, 4 * Config.buckets v ≤ h ∨ h = 0x3FFFF → mfind r.entries h = none) ∧
      ∀ h, r.handle = some h → h < 4 * Config.buckets v ∧ h < 2 ^ 18 ∧ h ≠ 0x3FFFF

/-- RING_MODE without a lease on every quad of the ring is refused with NOT_LEASED; SYNTH_SET of a FREQ outside R190's
range or outside the region plan, and FIELD_ON of a quad without a channel, are refused with BAD_PARAM; a refused
command changes nothing. After reset no quad has a channel. Stated where no check before that one fails. -/
def Obligations.ChannelsAndRingAreChecked : Prop :=
  (∀ (k : Stamp) (s : State) (sl : Slot) (c : Instr) (opc : Nat) (chks : State → Slot → List Chk) (st : BitVec 8),
    hostRow c = some (k, opc, chks) → findSlot s k = some sl → hdrOpc sl.hdr = opc → mayDispatch s sl = true →
    (opcodeChk s sl).bad = false → tagInUse s sl = false → sl.payload.length = 1 → sl.extra = 0 →
    (c = .ringMode k ∧ st = 0x13 ∧ Config.hasBearing s.variant = true ∧ fld (pw sl 0) 31 1 = 0 ∧
        (ringQuads s.variant).any (fieldIsOn s) = false ∧ holdsAll s sl.port (ringQuads s.variant) = false ∨
      c = .synthSet k ∧ st = 0x12 ∧ quadPresent s (quadField sl) = true ∧
        (fld (pw sl 0) 25 0 < 36693334 ∨ 40960000 < fld (pw sl 0) 25 0 ∨
          inRegion s.boot.region (fld (pw sl 0) 25 0) = false) ∨
      c = .fieldOn k ∧ st = 0x12 ∧ quadPresent s (quadField sl) = true ∧
        (∀ i, i < 16 → (fld (pw sl 0) 15 0).testBit i = true → i < Config.ports s.variant) ∧
        channel s (quadField sl) = none) →
    exec c s = .next (refusedSlot s k st 1 false)) ∧
  ∀ q : Quad, channel State.reset q = none

/-- In ring mode every quad of the ring takes a token's new state in the same E-cycle, whichever quad is named, by the one
operation through which every command claims, refreshes and releases; and TOKEN_REFRESH refreshes them all. That FIELD_ON
claims and the field's end releases for the whole group is stated with those commands. -/
def Obligations.RingTokensMoveAsOne : Prop :=
  ∀ (s : State) (q : Quad) (tok : Token), s.ring = true → quadPresent s q = true →
    (∀ r : Quad, quadPresent s r = true → (setToken s q tok).quads[r].token = tok ∧
      (setToken s q tok).quads[r].refreshAt = s.ecyc) ∧
    (s.quads[q].token = .control → s.quads[q].refreshAt + 2048 ≤ s.ecyc → s.ecyc ≤ s.quads[q].refreshAt + 3932 →
      ∃ t, exec (.tokenRefresh q) s = .next t ∧ ∀ r : Quad, quadPresent s r = true → t.quads[r].refreshAt = s.ecyc)

/-- WALK0 and WALK1 are the opcode 0b0011 or 0b0100, RL, that is RID bits 1 and 0, and one parity bit that makes the number
of 1 bits even, so that no single bit error turns one into the other. -/
def Obligations.ExtensionsCarryEvenParity : Prop :=
  ∀ (rid : BitVec 8) (b : Bool),
    (stExtend rid b).take 4 = (if b then [false, true, false, false] else [false, false, true, true]) ∧
    ((stExtend rid b).drop 4).take 2 = [rid.getLsbD 1, rid.getLsbD 0] ∧
    (stExtend rid b).length = 7 ∧ ((stExtend rid b).filter id).length % 2 = 0 ∧
    2 ≤ (((stExtend rid b).zip (stExtend rid (!b))).filter (fun e => e.1 != e.2)).length

/-- The RID counter of a quad, or of the ring, advances by one at each round start, and by one more where that is the RID
of the round just ended; so the RID never repeats on consecutive rounds of a quad. That in ring mode the counter passes
over the last RID of every quad of the ring is the model's choice (log entry 48). -/
def Obligations.RidsNeverRepeat : Prop :=
  ∀ (s : State) (q : Quad), quadPresent s q = true →
    (∀ r ∈ groupOf s q, (takeRid s q).2 ≠ s.quads[r].lastRid ∧ (takeRid s q).1.quads[r].lastRid = (takeRid s q).2) ∧
    (s.ring = false → (takeRid s q).2 = (if s.quads[q].rid + 1 = s.quads[q].lastRid then s.quads[q].rid + 2
      else s.quads[q].rid + 1) ∧ (takeRid s q).1.quads[q].rid = (takeRid s q).2) ∧
    (s.ring = true → (takeRid s q).1.ringRid = (takeRid s q).2)

/-- A standby candidate that declares sync while the receiving frame has not becomes the receiving frame at once, the
former receiving frame becomes standby, and no flag, counter or other port changes. A candidate declares sync where its
correlator's sync completes, c + 24 before, by the reply deadline and inside its allowance, on the sync word or, in an
ISO/IEC 18000-63 exchange, with a beginning inside T1. -/
def Obligations.StandbySyncSwapsTheRoles : Prop :=
  ∀ (p : Port) (s : State) (x : Exch) (c b : Cand), portExch s p = some x → listening x = true →
    s.ports[p].recv = some c → s.ports[p].standby = some b → c.sync = none → b.sync = none → c.tz ≠ b.tz →
    s.ecyc - (x.chip + 24) ≤ x.deadline → s.ecyc - (x.chip + 24) ≤ b.due →
    (if x.iso then inT1 x b (s.ecyc - (x.chip + 24)) else syncMatches s p x b (s.ecyc - (x.chip + 24))) = true →
    ∃ d, d.sync = some (s.ecyc - (x.chip + 24)) ∧ d.lockAt = b.lockAt ∧ d.power = b.power ∧ d.tz = b.tz ∧
      exec (.syncDeclaration p b.tz) s =
        .next (s.updPort p (fun z => { z with recv := some d, standby := some c }))

/-- Barker: BARKER_ARM ends with CEILING_BLOCK where −10 dBm and GANT exceed EIRP_MAX; a skipped slot makes no comparison
and no baseline update, counts once and leaves the confirmation run; a Barker record has 8 words with its port, Γ, Γ_b
and stamp. That a BARKER_ARM with a zero mask, which arms nothing, is not held to the ceiling is the model's choice (log
entry 51). -/
def Obligations.BarkerIsCheckedSkippedAndRecorded : Prop :=
  (∀ (k : Stamp) (s : State) (sl : Slot), findSlot s k = some sl → fld (pw sl 0) 15 0 ≠ 0 →
    (fld s.boot.ceiling 9 0 : Int) < (fld s.boot.ceiling 19 10 : Int) - 40 →
    barkerArm s k sl = updSlot s k (fun x => { x with
      status := 0x41, pword := 1, effs := [], waits := .nothing, ended := true })) ∧
  (∀ (p : Port) (s : State), s.mapsOk = true → s.bark.armed.getLsbD p.val = true → slotAt s p ≤ s.ecyc →
    s.ecyc < slotAt s p + 122880 → s.ports[p].slotNo ≠ slotAt s p + 1 →
    (∀ r : Port, s.ports[r].burst = none) → slotSkips s p = true →
    ∃ t, exec (.barkerSlot p) s = .next t ∧ t.ports[p].base = s.ports[p].base ∧ t.ports[p].burst = none ∧
      fld (t.reg (aPort p 0x2B)) 14 12 = fld (s.reg (aPort p 0x2B)) 14 12 ∧ t.reg (aPort p 0x2D) = s.reg (aPort p 0x2D) ∧
      t.reg (aPort p 0x2F) = (if s.reg (aPort p 0x2F) = 0xFFFFFFFF then 0xFFFFFFFF else s.reg (aPort p 0x2F) + 1)) ∧
  (∀ (p : Port) (s : State) (e : Nat),
    let o := s.bark.owner
    s.mapsOk = true → s.hosts[o].queue.all (fun u => u.ukind != 2) = true → ∃ u,
      (barkFires s p e).hosts[o].queue = s.hosts[o].queue ++ [u] ∧ u.ukind = 2 ∧ unitWords u = 8 ∧
        u.body.take 3 = [put 0 4 p.val, s.reg (aPort p 0x2E), s.reg (aPort p 0x2D)] ∧
        u.body.getD 3 0 = BitVec.ofNat 32 ((e + 122640) / 160 % 2 ^ 48) ∧
        u.body.getD 4 0 = put 0 16 ((e + 122640) / 160 % 2 ^ 48 / 2 ^ 32))

/-- Neither a DRAIN nor a REPLAY produces a link record: no more of them wait or are held aside after it than before. -/
def Obligations.DrainAndReplayMakeNoLinkRecord : Prop :=
  ∀ (h : HostPort) (nbits : Nat) (s : State),
    let links (t : State) : Nat := ((t.hosts[h].queue ++ t.hosts[h].aside).filter (fun u => u.ukind == 3)).length
    (∃ t, exec (.drain h nbits) s = .next t ∧ links t ≤ links s) ∧
    (∃ t, exec (.replay h nbits) s = .next t ∧ links t ≤ links s)

/-- Every ST_ and G_ command needs its quads' token in CONTROL with the field on: without it the command never starts, and
where no other kind of check fails but a lease its status is BAD_PARAM. -/
def Obligations.AirCommandsNeedTheField : Prop :=
  ∀ (c : Instr) (k : Stamp) (opc : Nat) (chks : State → Slot → List Chk) (s : State) (sl : Slot),
    hostRow c = some (k, opc, chks) → isAirOp opc = true →
    (if isSeqOp opc then (maskQuads (fld (pw sl 0) 3 0)).all (underControl s) = false
      else underControl s (quadField sl) = false) →
    ¬ Starts c s sl ∧ ((∀ f ∈ chks s sl, f.bad = true → f.st = stBadParam ∨ f.st = stNotLeased) →
      ∃ f, firstBad (chks s sl) = some f ∧ f.st = stBadParam)
end

