-- ==== Sys2Proof/Laws/State.lean ====
section
/-! SUPPORT. One lemma per field per update of State, true by definition. -/

namespace Sys2Proof.Machine.State

variable (s : State)

/-! What `setReg` leaves alone. -/

@[simp] theorem setReg_pending (a : Nat) (w : Word) : (s.setReg a w).pending = s.pending := rfl
@[simp] theorem setReg_live (a : Nat) (w : Word) : (s.setReg a w).live = s.live := rfl
@[simp] theorem setReg_ecyc (a : Nat) (w : Word) : (s.setReg a w).ecyc = s.ecyc := rfl
@[simp] theorem setReg_tb (a : Nat) (w : Word) : (s.setReg a w).tb = s.tb := rfl
@[simp] theorem setReg_latches (a : Nat) (w : Word) : (s.setReg a w).latches = s.latches := rfl
@[simp] theorem setReg_engLatch (a : Nat) (w : Word) : (s.setReg a w).engLatch = s.engLatch := rfl
@[simp] theorem setReg_cut (a : Nat) (w : Word) : (s.setReg a w).cut = s.cut := rfl
@[simp] theorem setReg_lastRead (a : Nat) (w : Word) : (s.setReg a w).lastRead = s.lastRead := rfl
@[simp] theorem setReg_cntSat (a : Nat) (w : Word) : (s.setReg a w).cntSat = s.cntSat := rfl
@[simp] theorem setReg_past (a : Nat) (w : Word) : (s.setReg a w).past = s.past := rfl
@[simp] theorem setReg_free (a : Nat) (w : Word) : (s.setReg a w).free = s.free := rfl
@[simp] theorem setReg_ports (a : Nat) (w : Word) : (s.setReg a w).ports = s.ports := rfl
@[simp] theorem setReg_quads (a : Nat) (w : Word) : (s.setReg a w).quads = s.quads := rfl
@[simp] theorem setReg_ring (a : Nat) (w : Word) : (s.setReg a w).ring = s.ring := rfl
@[simp] theorem setReg_hosts (a : Nat) (w : Word) : (s.setReg a w).hosts = s.hosts := rfl
@[simp] theorem setReg_car (a : Nat) (w : Word) : (s.setReg a w).car = s.car := rfl
@[simp] theorem setReg_bark (a : Nat) (w : Word) : (s.setReg a w).bark = s.bark := rfl
@[simp] theorem setReg_beams (a : Nat) (w : Word) : (s.setReg a w).beams = s.beams := rfl
@[simp] theorem setReg_power (a : Nat) (w : Word) : (s.setReg a w).power = s.power := rfl
@[simp] theorem setReg_ofsHost (a : Nat) (w : Word) : (s.setReg a w).ofsHost = s.ofsHost := rfl
@[simp] theorem setReg_roundCtr (a : Nat) (w : Word) : (s.setReg a w).roundCtr = s.roundCtr := rfl
@[simp] theorem setReg_ringRid (a : Nat) (w : Word) : (s.setReg a w).ringRid = s.ringRid := rfl
@[simp] theorem setReg_ringLink (a : Nat) (w : Word) : (s.setReg a w).ringLink = s.ringLink := rfl
@[simp] theorem setReg_mw (a : Nat) (w : Word) : (s.setReg a w).mw = s.mw := rfl
@[simp] theorem setReg_mp (a : Nat) (w : Word) : (s.setReg a w).mp = s.mp := rfl
@[simp] theorem setReg_patch (a : Nat) (w : Word) : (s.setReg a w).patch = s.patch := rfl
@[simp] theorem setReg_fuse (a : Nat) (w : Word) : (s.setReg a w).fuse = s.fuse := rfl
@[simp] theorem setReg_dir (a : Nat) (w : Word) : (s.setReg a w).dir = s.dir := rfl
@[simp] theorem setReg_boot (a : Nat) (w : Word) : (s.setReg a w).boot = s.boot := rfl
@[simp] theorem setReg_supply (a : Nat) (w : Word) : (s.setReg a w).supply = s.supply := rfl

/-! What `setUse` leaves alone. -/

@[simp] theorem setUse_pending (a : Nat) (w : Word) : (s.setUse a w).pending = s.pending := rfl
@[simp] theorem setUse_regs (a : Nat) (w : Word) : (s.setUse a w).regs = s.regs := rfl
@[simp] theorem setUse_ecyc (a : Nat) (w : Word) : (s.setUse a w).ecyc = s.ecyc := rfl
@[simp] theorem setUse_tb (a : Nat) (w : Word) : (s.setUse a w).tb = s.tb := rfl
@[simp] theorem setUse_latches (a : Nat) (w : Word) : (s.setUse a w).latches = s.latches := rfl
@[simp] theorem setUse_engLatch (a : Nat) (w : Word) : (s.setUse a w).engLatch = s.engLatch := rfl
@[simp] theorem setUse_cut (a : Nat) (w : Word) : (s.setUse a w).cut = s.cut := rfl
@[simp] theorem setUse_lastRead (a : Nat) (w : Word) : (s.setUse a w).lastRead = s.lastRead := rfl
@[simp] theorem setUse_cntSat (a : Nat) (w : Word) : (s.setUse a w).cntSat = s.cntSat := rfl
@[simp] theorem setUse_past (a : Nat) (w : Word) : (s.setUse a w).past = s.past := rfl
@[simp] theorem setUse_free (a : Nat) (w : Word) : (s.setUse a w).free = s.free := rfl
@[simp] theorem setUse_ports (a : Nat) (w : Word) : (s.setUse a w).ports = s.ports := rfl
@[simp] theorem setUse_quads (a : Nat) (w : Word) : (s.setUse a w).quads = s.quads := rfl
@[simp] theorem setUse_ring (a : Nat) (w : Word) : (s.setUse a w).ring = s.ring := rfl
@[simp] theorem setUse_hosts (a : Nat) (w : Word) : (s.setUse a w).hosts = s.hosts := rfl
@[simp] theorem setUse_car (a : Nat) (w : Word) : (s.setUse a w).car = s.car := rfl
@[simp] theorem setUse_bark (a : Nat) (w : Word) : (s.setUse a w).bark = s.bark := rfl
@[simp] theorem setUse_beams (a : Nat) (w : Word) : (s.setUse a w).beams = s.beams := rfl
@[simp] theorem setUse_power (a : Nat) (w : Word) : (s.setUse a w).power = s.power := rfl
@[simp] theorem setUse_ofsHost (a : Nat) (w : Word) : (s.setUse a w).ofsHost = s.ofsHost := rfl
@[simp] theorem setUse_roundCtr (a : Nat) (w : Word) : (s.setUse a w).roundCtr = s.roundCtr := rfl
@[simp] theorem setUse_ringRid (a : Nat) (w : Word) : (s.setUse a w).ringRid = s.ringRid := rfl
@[simp] theorem setUse_ringLink (a : Nat) (w : Word) : (s.setUse a w).ringLink = s.ringLink := rfl
@[simp] theorem setUse_mw (a : Nat) (w : Word) : (s.setUse a w).mw = s.mw := rfl
@[simp] theorem setUse_mp (a : Nat) (w : Word) : (s.setUse a w).mp = s.mp := rfl
@[simp] theorem setUse_patch (a : Nat) (w : Word) : (s.setUse a w).patch = s.patch := rfl
@[simp] theorem setUse_fuse (a : Nat) (w : Word) : (s.setUse a w).fuse = s.fuse := rfl
@[simp] theorem setUse_dir (a : Nat) (w : Word) : (s.setUse a w).dir = s.dir := rfl
@[simp] theorem setUse_boot (a : Nat) (w : Word) : (s.setUse a w).boot = s.boot := rfl
@[simp] theorem setUse_supply (a : Nat) (w : Word) : (s.setUse a w).supply = s.supply := rfl

/-! What `setView` leaves alone. -/

@[simp] theorem setView_pending (a : Nat) (w : Word) : (s.setView a w).pending = s.pending := by unfold setView; split <;> rfl
@[simp] theorem setView_regs (a : Nat) (w : Word) : (s.setView a w).regs = s.regs := by unfold setView; split <;> rfl
@[simp] theorem setView_live (a : Nat) (w : Word) : (s.setView a w).live = s.live := by unfold setView; split <;> rfl
@[simp] theorem setView_ecyc (a : Nat) (w : Word) : (s.setView a w).ecyc = s.ecyc := by unfold setView; split <;> rfl
@[simp] theorem setView_tb (a : Nat) (w : Word) : (s.setView a w).tb = s.tb := by unfold setView; split <;> rfl
@[simp] theorem setView_latches (a : Nat) (w : Word) : (s.setView a w).latches = s.latches := by unfold setView; split <;> rfl
@[simp] theorem setView_engLatch (a : Nat) (w : Word) : (s.setView a w).engLatch = s.engLatch := by unfold setView; split <;> rfl
@[simp] theorem setView_lastRead (a : Nat) (w : Word) : (s.setView a w).lastRead = s.lastRead := by unfold setView; split <;> rfl
@[simp] theorem setView_cntSat (a : Nat) (w : Word) : (s.setView a w).cntSat = s.cntSat := by unfold setView; split <;> rfl
@[simp] theorem setView_past (a : Nat) (w : Word) : (s.setView a w).past = s.past := by unfold setView; split <;> rfl
@[simp] theorem setView_free (a : Nat) (w : Word) : (s.setView a w).free = s.free := by unfold setView; split <;> rfl
@[simp] theorem setView_ports (a : Nat) (w : Word) : (s.setView a w).ports = s.ports := by unfold setView; split <;> rfl
@[simp] theorem setView_quads (a : Nat) (w : Word) : (s.setView a w).quads = s.quads := by unfold setView; split <;> rfl
@[simp] theorem setView_ring (a : Nat) (w : Word) : (s.setView a w).ring = s.ring := by unfold setView; split <;> rfl
@[simp] theorem setView_hosts (a : Nat) (w : Word) : (s.setView a w).hosts = s.hosts := by unfold setView; split <;> rfl
@[simp] theorem setView_car (a : Nat) (w : Word) : (s.setView a w).car = s.car := by unfold setView; split <;> rfl
@[simp] theorem setView_bark (a : Nat) (w : Word) : (s.setView a w).bark = s.bark := by unfold setView; split <;> rfl
@[simp] theorem setView_beams (a : Nat) (w : Word) : (s.setView a w).beams = s.beams := by unfold setView; split <;> rfl
@[simp] theorem setView_power (a : Nat) (w : Word) : (s.setView a w).power = s.power := by unfold setView; split <;> rfl
@[simp] theorem setView_ofsHost (a : Nat) (w : Word) : (s.setView a w).ofsHost = s.ofsHost := by unfold setView; split <;> rfl
@[simp] theorem setView_roundCtr (a : Nat) (w : Word) : (s.setView a w).roundCtr = s.roundCtr := by unfold setView; split <;> rfl
@[simp] theorem setView_ringRid (a : Nat) (w : Word) : (s.setView a w).ringRid = s.ringRid := by unfold setView; split <;> rfl
@[simp] theorem setView_ringLink (a : Nat) (w : Word) : (s.setView a w).ringLink = s.ringLink := by unfold setView; split <;> rfl
@[simp] theorem setView_mw (a : Nat) (w : Word) : (s.setView a w).mw = s.mw := by unfold setView; split <;> rfl
@[simp] theorem setView_mp (a : Nat) (w : Word) : (s.setView a w).mp = s.mp := by unfold setView; split <;> rfl
@[simp] theorem setView_patch (a : Nat) (w : Word) : (s.setView a w).patch = s.patch := by unfold setView; split <;> rfl
@[simp] theorem setView_fuse (a : Nat) (w : Word) : (s.setView a w).fuse = s.fuse := by unfold setView; split <;> rfl
@[simp] theorem setView_dir (a : Nat) (w : Word) : (s.setView a w).dir = s.dir := by unfold setView; split <;> rfl
@[simp] theorem setView_boot (a : Nat) (w : Word) : (s.setView a w).boot = s.boot := by unfold setView; split <;> rfl
@[simp] theorem setView_supply (a : Nat) (w : Word) : (s.setView a w).supply = s.supply := by unfold setView; split <;> rfl

/-! What `setRegFld` leaves alone. -/

@[simp] theorem setRegFld_pending (a hi lo v : Nat) : (s.setRegFld a hi lo v).pending = s.pending := rfl
@[simp] theorem setRegFld_live (a hi lo v : Nat) : (s.setRegFld a hi lo v).live = s.live := rfl
@[simp] theorem setRegFld_ecyc (a hi lo v : Nat) : (s.setRegFld a hi lo v).ecyc = s.ecyc := rfl
@[simp] theorem setRegFld_tb (a hi lo v : Nat) : (s.setRegFld a hi lo v).tb = s.tb := rfl
@[simp] theorem setRegFld_latches (a hi lo v : Nat) : (s.setRegFld a hi lo v).latches = s.latches := rfl
@[simp] theorem setRegFld_engLatch (a hi lo v : Nat) : (s.setRegFld a hi lo v).engLatch = s.engLatch := rfl
@[simp] theorem setRegFld_cut (a hi lo v : Nat) : (s.setRegFld a hi lo v).cut = s.cut := rfl
@[simp] theorem setRegFld_lastRead (a hi lo v : Nat) : (s.setRegFld a hi lo v).lastRead = s.lastRead := rfl
@[simp] theorem setRegFld_cntSat (a hi lo v : Nat) : (s.setRegFld a hi lo v).cntSat = s.cntSat := rfl
@[simp] theorem setRegFld_past (a hi lo v : Nat) : (s.setRegFld a hi lo v).past = s.past := rfl
@[simp] theorem setRegFld_free (a hi lo v : Nat) : (s.setRegFld a hi lo v).free = s.free := rfl
@[simp] theorem setRegFld_ports (a hi lo v : Nat) : (s.setRegFld a hi lo v).ports = s.ports := rfl
@[simp] theorem setRegFld_quads (a hi lo v : Nat) : (s.setRegFld a hi lo v).quads = s.quads := rfl
@[simp] theorem setRegFld_ring (a hi lo v : Nat) : (s.setRegFld a hi lo v).ring = s.ring := rfl
@[simp] theorem setRegFld_hosts (a hi lo v : Nat) : (s.setRegFld a hi lo v).hosts = s.hosts := rfl
@[simp] theorem setRegFld_car (a hi lo v : Nat) : (s.setRegFld a hi lo v).car = s.car := rfl
@[simp] theorem setRegFld_bark (a hi lo v : Nat) : (s.setRegFld a hi lo v).bark = s.bark := rfl
@[simp] theorem setRegFld_beams (a hi lo v : Nat) : (s.setRegFld a hi lo v).beams = s.beams := rfl
@[simp] theorem setRegFld_power (a hi lo v : Nat) : (s.setRegFld a hi lo v).power = s.power := rfl
@[simp] theorem setRegFld_ofsHost (a hi lo v : Nat) : (s.setRegFld a hi lo v).ofsHost = s.ofsHost := rfl
@[simp] theorem setRegFld_roundCtr (a hi lo v : Nat) : (s.setRegFld a hi lo v).roundCtr = s.roundCtr := rfl
@[simp] theorem setRegFld_ringRid (a hi lo v : Nat) : (s.setRegFld a hi lo v).ringRid = s.ringRid := rfl
@[simp] theorem setRegFld_ringLink (a hi lo v : Nat) : (s.setRegFld a hi lo v).ringLink = s.ringLink := rfl
@[simp] theorem setRegFld_mw (a hi lo v : Nat) : (s.setRegFld a hi lo v).mw = s.mw := rfl
@[simp] theorem setRegFld_mp (a hi lo v : Nat) : (s.setRegFld a hi lo v).mp = s.mp := rfl
@[simp] theorem setRegFld_patch (a hi lo v : Nat) : (s.setRegFld a hi lo v).patch = s.patch := rfl
@[simp] theorem setRegFld_fuse (a hi lo v : Nat) : (s.setRegFld a hi lo v).fuse = s.fuse := rfl
@[simp] theorem setRegFld_dir (a hi lo v : Nat) : (s.setRegFld a hi lo v).dir = s.dir := rfl
@[simp] theorem setRegFld_boot (a hi lo v : Nat) : (s.setRegFld a hi lo v).boot = s.boot := rfl
@[simp] theorem setRegFld_supply (a hi lo v : Nat) : (s.setRegFld a hi lo v).supply = s.supply := rfl

/-! What `setRegBit` leaves alone. -/

@[simp] theorem setRegBit_pending (a i : Nat) (b : Bool) : (s.setRegBit a i b).pending = s.pending := rfl
@[simp] theorem setRegBit_live (a i : Nat) (b : Bool) : (s.setRegBit a i b).live = s.live := rfl
@[simp] theorem setRegBit_ecyc (a i : Nat) (b : Bool) : (s.setRegBit a i b).ecyc = s.ecyc := rfl
@[simp] theorem setRegBit_tb (a i : Nat) (b : Bool) : (s.setRegBit a i b).tb = s.tb := rfl
@[simp] theorem setRegBit_latches (a i : Nat) (b : Bool) : (s.setRegBit a i b).latches = s.latches := rfl
@[simp] theorem setRegBit_engLatch (a i : Nat) (b : Bool) : (s.setRegBit a i b).engLatch = s.engLatch := rfl
@[simp] theorem setRegBit_lastRead (a i : Nat) (b : Bool) : (s.setRegBit a i b).lastRead = s.lastRead := rfl
@[simp] theorem setRegBit_cntSat (a i : Nat) (b : Bool) : (s.setRegBit a i b).cntSat = s.cntSat := rfl
@[simp] theorem setRegBit_past (a i : Nat) (b : Bool) : (s.setRegBit a i b).past = s.past := rfl
@[simp] theorem setRegBit_free (a i : Nat) (b : Bool) : (s.setRegBit a i b).free = s.free := rfl
@[simp] theorem setRegBit_ports (a i : Nat) (b : Bool) : (s.setRegBit a i b).ports = s.ports := rfl
@[simp] theorem setRegBit_quads (a i : Nat) (b : Bool) : (s.setRegBit a i b).quads = s.quads := rfl
@[simp] theorem setRegBit_ring (a i : Nat) (b : Bool) : (s.setRegBit a i b).ring = s.ring := rfl
@[simp] theorem setRegBit_hosts (a i : Nat) (b : Bool) : (s.setRegBit a i b).hosts = s.hosts := rfl
@[simp] theorem setRegBit_car (a i : Nat) (b : Bool) : (s.setRegBit a i b).car = s.car := rfl
@[simp] theorem setRegBit_bark (a i : Nat) (b : Bool) : (s.setRegBit a i b).bark = s.bark := rfl
@[simp] theorem setRegBit_beams (a i : Nat) (b : Bool) : (s.setRegBit a i b).beams = s.beams := rfl
@[simp] theorem setRegBit_power (a i : Nat) (b : Bool) : (s.setRegBit a i b).power = s.power := rfl
@[simp] theorem setRegBit_ofsHost (a i : Nat) (b : Bool) : (s.setRegBit a i b).ofsHost = s.ofsHost := rfl
@[simp] theorem setRegBit_roundCtr (a i : Nat) (b : Bool) : (s.setRegBit a i b).roundCtr = s.roundCtr := rfl
@[simp] theorem setRegBit_ringRid (a i : Nat) (b : Bool) : (s.setRegBit a i b).ringRid = s.ringRid := rfl
@[simp] theorem setRegBit_ringLink (a i : Nat) (b : Bool) : (s.setRegBit a i b).ringLink = s.ringLink := rfl
@[simp] theorem setRegBit_mw (a i : Nat) (b : Bool) : (s.setRegBit a i b).mw = s.mw := rfl
@[simp] theorem setRegBit_mp (a i : Nat) (b : Bool) : (s.setRegBit a i b).mp = s.mp := rfl
@[simp] theorem setRegBit_patch (a i : Nat) (b : Bool) : (s.setRegBit a i b).patch = s.patch := rfl
@[simp] theorem setRegBit_fuse (a i : Nat) (b : Bool) : (s.setRegBit a i b).fuse = s.fuse := rfl
@[simp] theorem setRegBit_dir (a i : Nat) (b : Bool) : (s.setRegBit a i b).dir = s.dir := rfl
@[simp] theorem setRegBit_boot (a i : Nat) (b : Bool) : (s.setRegBit a i b).boot = s.boot := rfl
@[simp] theorem setRegBit_supply (a i : Nat) (b : Bool) : (s.setRegBit a i b).supply = s.supply := rfl

/-! What `setErr` leaves alone. -/

@[simp] theorem setErr_pending (i : Nat) : (s.setErr i).pending = s.pending := rfl
@[simp] theorem setErr_live (i : Nat) : (s.setErr i).live = s.live := rfl
@[simp] theorem setErr_ecyc (i : Nat) : (s.setErr i).ecyc = s.ecyc := rfl
@[simp] theorem setErr_tb (i : Nat) : (s.setErr i).tb = s.tb := rfl
@[simp] theorem setErr_latches (i : Nat) : (s.setErr i).latches = s.latches := rfl
@[simp] theorem setErr_engLatch (i : Nat) : (s.setErr i).engLatch = s.engLatch := rfl
@[simp] theorem setErr_lastRead (i : Nat) : (s.setErr i).lastRead = s.lastRead := rfl
@[simp] theorem setErr_cntSat (i : Nat) : (s.setErr i).cntSat = s.cntSat := rfl
@[simp] theorem setErr_past (i : Nat) : (s.setErr i).past = s.past := rfl
@[simp] theorem setErr_free (i : Nat) : (s.setErr i).free = s.free := rfl
@[simp] theorem setErr_ports (i : Nat) : (s.setErr i).ports = s.ports := rfl
@[simp] theorem setErr_quads (i : Nat) : (s.setErr i).quads = s.quads := rfl
@[simp] theorem setErr_ring (i : Nat) : (s.setErr i).ring = s.ring := rfl
@[simp] theorem setErr_hosts (i : Nat) : (s.setErr i).hosts = s.hosts := rfl
@[simp] theorem setErr_car (i : Nat) : (s.setErr i).car = s.car := rfl
@[simp] theorem setErr_bark (i : Nat) : (s.setErr i).bark = s.bark := rfl
@[simp] theorem setErr_beams (i : Nat) : (s.setErr i).beams = s.beams := rfl
@[simp] theorem setErr_power (i : Nat) : (s.setErr i).power = s.power := rfl
@[simp] theorem setErr_ofsHost (i : Nat) : (s.setErr i).ofsHost = s.ofsHost := rfl
@[simp] theorem setErr_roundCtr (i : Nat) : (s.setErr i).roundCtr = s.roundCtr := rfl
@[simp] theorem setErr_ringRid (i : Nat) : (s.setErr i).ringRid = s.ringRid := rfl
@[simp] theorem setErr_ringLink (i : Nat) : (s.setErr i).ringLink = s.ringLink := rfl
@[simp] theorem setErr_mw (i : Nat) : (s.setErr i).mw = s.mw := rfl
@[simp] theorem setErr_mp (i : Nat) : (s.setErr i).mp = s.mp := rfl
@[simp] theorem setErr_patch (i : Nat) : (s.setErr i).patch = s.patch := rfl
@[simp] theorem setErr_fuse (i : Nat) : (s.setErr i).fuse = s.fuse := rfl
@[simp] theorem setErr_dir (i : Nat) : (s.setErr i).dir = s.dir := rfl
@[simp] theorem setErr_boot (i : Nat) : (s.setErr i).boot = s.boot := rfl
@[simp] theorem setErr_supply (i : Nat) : (s.setErr i).supply = s.supply := rfl

/-! What `apply1` leaves alone. -/

@[simp] theorem apply1_pending (a : Nat) : (s.apply1 a).pending = s.pending := rfl
@[simp] theorem apply1_regs (a : Nat) : (s.apply1 a).regs = s.regs := rfl
@[simp] theorem apply1_ecyc (a : Nat) : (s.apply1 a).ecyc = s.ecyc := rfl
@[simp] theorem apply1_tb (a : Nat) : (s.apply1 a).tb = s.tb := rfl
@[simp] theorem apply1_latches (a : Nat) : (s.apply1 a).latches = s.latches := rfl
@[simp] theorem apply1_engLatch (a : Nat) : (s.apply1 a).engLatch = s.engLatch := rfl
@[simp] theorem apply1_cut (a : Nat) : (s.apply1 a).cut = s.cut := rfl
@[simp] theorem apply1_lastRead (a : Nat) : (s.apply1 a).lastRead = s.lastRead := rfl
@[simp] theorem apply1_cntSat (a : Nat) : (s.apply1 a).cntSat = s.cntSat := rfl
@[simp] theorem apply1_past (a : Nat) : (s.apply1 a).past = s.past := rfl
@[simp] theorem apply1_free (a : Nat) : (s.apply1 a).free = s.free := rfl
@[simp] theorem apply1_ports (a : Nat) : (s.apply1 a).ports = s.ports := rfl
@[simp] theorem apply1_quads (a : Nat) : (s.apply1 a).quads = s.quads := rfl
@[simp] theorem apply1_ring (a : Nat) : (s.apply1 a).ring = s.ring := rfl
@[simp] theorem apply1_hosts (a : Nat) : (s.apply1 a).hosts = s.hosts := rfl
@[simp] theorem apply1_car (a : Nat) : (s.apply1 a).car = s.car := rfl
@[simp] theorem apply1_bark (a : Nat) : (s.apply1 a).bark = s.bark := rfl
@[simp] theorem apply1_beams (a : Nat) : (s.apply1 a).beams = s.beams := rfl
@[simp] theorem apply1_power (a : Nat) : (s.apply1 a).power = s.power := rfl
@[simp] theorem apply1_ofsHost (a : Nat) : (s.apply1 a).ofsHost = s.ofsHost := rfl
@[simp] theorem apply1_roundCtr (a : Nat) : (s.apply1 a).roundCtr = s.roundCtr := rfl
@[simp] theorem apply1_ringRid (a : Nat) : (s.apply1 a).ringRid = s.ringRid := rfl
@[simp] theorem apply1_ringLink (a : Nat) : (s.apply1 a).ringLink = s.ringLink := rfl
@[simp] theorem apply1_mw (a : Nat) : (s.apply1 a).mw = s.mw := rfl
@[simp] theorem apply1_mp (a : Nat) : (s.apply1 a).mp = s.mp := rfl
@[simp] theorem apply1_patch (a : Nat) : (s.apply1 a).patch = s.patch := rfl
@[simp] theorem apply1_fuse (a : Nat) : (s.apply1 a).fuse = s.fuse := rfl
@[simp] theorem apply1_dir (a : Nat) : (s.apply1 a).dir = s.dir := rfl
@[simp] theorem apply1_boot (a : Nat) : (s.apply1 a).boot = s.boot := rfl
@[simp] theorem apply1_supply (a : Nat) : (s.apply1 a).supply = s.supply := rfl

/-! What `updPort` leaves alone. -/

@[simp] theorem updPort_pending (p : Port) (f : PortSt → PortSt) : (s.updPort p f).pending = s.pending := rfl
@[simp] theorem updPort_regs (p : Port) (f : PortSt → PortSt) : (s.updPort p f).regs = s.regs := rfl
@[simp] theorem updPort_live (p : Port) (f : PortSt → PortSt) : (s.updPort p f).live = s.live := rfl
@[simp] theorem updPort_ecyc (p : Port) (f : PortSt → PortSt) : (s.updPort p f).ecyc = s.ecyc := rfl
@[simp] theorem updPort_tb (p : Port) (f : PortSt → PortSt) : (s.updPort p f).tb = s.tb := rfl
@[simp] theorem updPort_latches (p : Port) (f : PortSt → PortSt) : (s.updPort p f).latches = s.latches := rfl
@[simp] theorem updPort_engLatch (p : Port) (f : PortSt → PortSt) : (s.updPort p f).engLatch = s.engLatch := rfl
@[simp] theorem updPort_cut (p : Port) (f : PortSt → PortSt) : (s.updPort p f).cut = s.cut := rfl
@[simp] theorem updPort_lastRead (p : Port) (f : PortSt → PortSt) : (s.updPort p f).lastRead = s.lastRead := rfl
@[simp] theorem updPort_cntSat (p : Port) (f : PortSt → PortSt) : (s.updPort p f).cntSat = s.cntSat := rfl
@[simp] theorem updPort_past (p : Port) (f : PortSt → PortSt) : (s.updPort p f).past = s.past := rfl
@[simp] theorem updPort_free (p : Port) (f : PortSt → PortSt) : (s.updPort p f).free = s.free := rfl
@[simp] theorem updPort_quads (p : Port) (f : PortSt → PortSt) : (s.updPort p f).quads = s.quads := rfl
@[simp] theorem updPort_ring (p : Port) (f : PortSt → PortSt) : (s.updPort p f).ring = s.ring := rfl
@[simp] theorem updPort_hosts (p : Port) (f : PortSt → PortSt) : (s.updPort p f).hosts = s.hosts := rfl
@[simp] theorem updPort_car (p : Port) (f : PortSt → PortSt) : (s.updPort p f).car = s.car := rfl
@[simp] theorem updPort_bark (p : Port) (f : PortSt → PortSt) : (s.updPort p f).bark = s.bark := rfl
@[simp] theorem updPort_beams (p : Port) (f : PortSt → PortSt) : (s.updPort p f).beams = s.beams := rfl
@[simp] theorem updPort_power (p : Port) (f : PortSt → PortSt) : (s.updPort p f).power = s.power := rfl
@[simp] theorem updPort_ofsHost (p : Port) (f : PortSt → PortSt) : (s.updPort p f).ofsHost = s.ofsHost := rfl
@[simp] theorem updPort_roundCtr (p : Port) (f : PortSt → PortSt) : (s.updPort p f).roundCtr = s.roundCtr := rfl
@[simp] theorem updPort_ringRid (p : Port) (f : PortSt → PortSt) : (s.updPort p f).ringRid = s.ringRid := rfl
@[simp] theorem updPort_ringLink (p : Port) (f : PortSt → PortSt) : (s.updPort p f).ringLink = s.ringLink := rfl
@[simp] theorem updPort_mw (p : Port) (f : PortSt → PortSt) : (s.updPort p f).mw = s.mw := rfl
@[simp] theorem updPort_mp (p : Port) (f : PortSt → PortSt) : (s.updPort p f).mp = s.mp := rfl
@[simp] theorem updPort_patch (p : Port) (f : PortSt → PortSt) : (s.updPort p f).patch = s.patch := rfl
@[simp] theorem updPort_fuse (p : Port) (f : PortSt → PortSt) : (s.updPort p f).fuse = s.fuse := rfl
@[simp] theorem updPort_dir (p : Port) (f : PortSt → PortSt) : (s.updPort p f).dir = s.dir := rfl
@[simp] theorem updPort_boot (p : Port) (f : PortSt → PortSt) : (s.updPort p f).boot = s.boot := rfl
@[simp] theorem updPort_supply (p : Port) (f : PortSt → PortSt) : (s.updPort p f).supply = s.supply := rfl

/-! What `updQuad` leaves alone. -/

@[simp] theorem updQuad_pending (q : Quad) (f : QuadSt → QuadSt) : (s.updQuad q f).pending = s.pending := rfl
@[simp] theorem updQuad_regs (q : Quad) (f : QuadSt → QuadSt) : (s.updQuad q f).regs = s.regs := rfl
@[simp] theorem updQuad_live (q : Quad) (f : QuadSt → QuadSt) : (s.updQuad q f).live = s.live := rfl
@[simp] theorem updQuad_ecyc (q : Quad) (f : QuadSt → QuadSt) : (s.updQuad q f).ecyc = s.ecyc := rfl
@[simp] theorem updQuad_tb (q : Quad) (f : QuadSt → QuadSt) : (s.updQuad q f).tb = s.tb := rfl
@[simp] theorem updQuad_latches (q : Quad) (f : QuadSt → QuadSt) : (s.updQuad q f).latches = s.latches := rfl
@[simp] theorem updQuad_engLatch (q : Quad) (f : QuadSt → QuadSt) : (s.updQuad q f).engLatch = s.engLatch := rfl
@[simp] theorem updQuad_cut (q : Quad) (f : QuadSt → QuadSt) : (s.updQuad q f).cut = s.cut := rfl
@[simp] theorem updQuad_lastRead (q : Quad) (f : QuadSt → QuadSt) : (s.updQuad q f).lastRead = s.lastRead := rfl
@[simp] theorem updQuad_cntSat (q : Quad) (f : QuadSt → QuadSt) : (s.updQuad q f).cntSat = s.cntSat := rfl
@[simp] theorem updQuad_past (q : Quad) (f : QuadSt → QuadSt) : (s.updQuad q f).past = s.past := rfl
@[simp] theorem updQuad_free (q : Quad) (f : QuadSt → QuadSt) : (s.updQuad q f).free = s.free := rfl
@[simp] theorem updQuad_ports (q : Quad) (f : QuadSt → QuadSt) : (s.updQuad q f).ports = s.ports := rfl
@[simp] theorem updQuad_ring (q : Quad) (f : QuadSt → QuadSt) : (s.updQuad q f).ring = s.ring := rfl
@[simp] theorem updQuad_hosts (q : Quad) (f : QuadSt → QuadSt) : (s.updQuad q f).hosts = s.hosts := rfl
@[simp] theorem updQuad_car (q : Quad) (f : QuadSt → QuadSt) : (s.updQuad q f).car = s.car := rfl
@[simp] theorem updQuad_bark (q : Quad) (f : QuadSt → QuadSt) : (s.updQuad q f).bark = s.bark := rfl
@[simp] theorem updQuad_beams (q : Quad) (f : QuadSt → QuadSt) : (s.updQuad q f).beams = s.beams := rfl
@[simp] theorem updQuad_power (q : Quad) (f : QuadSt → QuadSt) : (s.updQuad q f).power = s.power := rfl
@[simp] theorem updQuad_ofsHost (q : Quad) (f : QuadSt → QuadSt) : (s.updQuad q f).ofsHost = s.ofsHost := rfl
@[simp] theorem updQuad_roundCtr (q : Quad) (f : QuadSt → QuadSt) : (s.updQuad q f).roundCtr = s.roundCtr := rfl
@[simp] theorem updQuad_ringRid (q : Quad) (f : QuadSt → QuadSt) : (s.updQuad q f).ringRid = s.ringRid := rfl
@[simp] theorem updQuad_ringLink (q : Quad) (f : QuadSt → QuadSt) : (s.updQuad q f).ringLink = s.ringLink := rfl
@[simp] theorem updQuad_mw (q : Quad) (f : QuadSt → QuadSt) : (s.updQuad q f).mw = s.mw := rfl
@[simp] theorem updQuad_mp (q : Quad) (f : QuadSt → QuadSt) : (s.updQuad q f).mp = s.mp := rfl
@[simp] theorem updQuad_patch (q : Quad) (f : QuadSt → QuadSt) : (s.updQuad q f).patch = s.patch := rfl
@[simp] theorem updQuad_fuse (q : Quad) (f : QuadSt → QuadSt) : (s.updQuad q f).fuse = s.fuse := rfl
@[simp] theorem updQuad_dir (q : Quad) (f : QuadSt → QuadSt) : (s.updQuad q f).dir = s.dir := rfl
@[simp] theorem updQuad_boot (q : Quad) (f : QuadSt → QuadSt) : (s.updQuad q f).boot = s.boot := rfl
@[simp] theorem updQuad_supply (q : Quad) (f : QuadSt → QuadSt) : (s.updQuad q f).supply = s.supply := rfl

/-! What `updHost` leaves alone. -/

@[simp] theorem updHost_pending (h : HostPort) (f : HpSt → HpSt) : (s.updHost h f).pending = s.pending := rfl
@[simp] theorem updHost_regs (h : HostPort) (f : HpSt → HpSt) : (s.updHost h f).regs = s.regs := rfl
@[simp] theorem updHost_live (h : HostPort) (f : HpSt → HpSt) : (s.updHost h f).live = s.live := rfl
@[simp] theorem updHost_ecyc (h : HostPort) (f : HpSt → HpSt) : (s.updHost h f).ecyc = s.ecyc := rfl
@[simp] theorem updHost_tb (h : HostPort) (f : HpSt → HpSt) : (s.updHost h f).tb = s.tb := rfl
@[simp] theorem updHost_latches (h : HostPort) (f : HpSt → HpSt) : (s.updHost h f).latches = s.latches := rfl
@[simp] theorem updHost_engLatch (h : HostPort) (f : HpSt → HpSt) : (s.updHost h f).engLatch = s.engLatch := rfl
@[simp] theorem updHost_cut (h : HostPort) (f : HpSt → HpSt) : (s.updHost h f).cut = s.cut := rfl
@[simp] theorem updHost_lastRead (h : HostPort) (f : HpSt → HpSt) : (s.updHost h f).lastRead = s.lastRead := rfl
@[simp] theorem updHost_cntSat (h : HostPort) (f : HpSt → HpSt) : (s.updHost h f).cntSat = s.cntSat := rfl
@[simp] theorem updHost_past (h : HostPort) (f : HpSt → HpSt) : (s.updHost h f).past = s.past := rfl
@[simp] theorem updHost_free (h : HostPort) (f : HpSt → HpSt) : (s.updHost h f).free = s.free := rfl
@[simp] theorem updHost_ports (h : HostPort) (f : HpSt → HpSt) : (s.updHost h f).ports = s.ports := rfl
@[simp] theorem updHost_quads (h : HostPort) (f : HpSt → HpSt) : (s.updHost h f).quads = s.quads := rfl
@[simp] theorem updHost_ring (h : HostPort) (f : HpSt → HpSt) : (s.updHost h f).ring = s.ring := rfl
@[simp] theorem updHost_car (h : HostPort) (f : HpSt → HpSt) : (s.updHost h f).car = s.car := rfl
@[simp] theorem updHost_bark (h : HostPort) (f : HpSt → HpSt) : (s.updHost h f).bark = s.bark := rfl
@[simp] theorem updHost_beams (h : HostPort) (f : HpSt → HpSt) : (s.updHost h f).beams = s.beams := rfl
@[simp] theorem updHost_power (h : HostPort) (f : HpSt → HpSt) : (s.updHost h f).power = s.power := rfl
@[simp] theorem updHost_ofsHost (h : HostPort) (f : HpSt → HpSt) : (s.updHost h f).ofsHost = s.ofsHost := rfl
@[simp] theorem updHost_roundCtr (h : HostPort) (f : HpSt → HpSt) : (s.updHost h f).roundCtr = s.roundCtr := rfl
@[simp] theorem updHost_ringRid (h : HostPort) (f : HpSt → HpSt) : (s.updHost h f).ringRid = s.ringRid := rfl
@[simp] theorem updHost_ringLink (h : HostPort) (f : HpSt → HpSt) : (s.updHost h f).ringLink = s.ringLink := rfl
@[simp] theorem updHost_mw (h : HostPort) (f : HpSt → HpSt) : (s.updHost h f).mw = s.mw := rfl
@[simp] theorem updHost_mp (h : HostPort) (f : HpSt → HpSt) : (s.updHost h f).mp = s.mp := rfl
@[simp] theorem updHost_patch (h : HostPort) (f : HpSt → HpSt) : (s.updHost h f).patch = s.patch := rfl
@[simp] theorem updHost_fuse (h : HostPort) (f : HpSt → HpSt) : (s.updHost h f).fuse = s.fuse := rfl
@[simp] theorem updHost_dir (h : HostPort) (f : HpSt → HpSt) : (s.updHost h f).dir = s.dir := rfl
@[simp] theorem updHost_boot (h : HostPort) (f : HpSt → HpSt) : (s.updHost h f).boot = s.boot := rfl
@[simp] theorem updHost_supply (h : HostPort) (f : HpSt → HpSt) : (s.updHost h f).supply = s.supply := rfl

/-! What `updLatch` leaves alone. -/

@[simp] theorem updLatch_pending (h : HostPort) (f : Latch → Latch) : (s.updLatch h f).pending = s.pending := rfl
@[simp] theorem updLatch_regs (h : HostPort) (f : Latch → Latch) : (s.updLatch h f).regs = s.regs := rfl
@[simp] theorem updLatch_live (h : HostPort) (f : Latch → Latch) : (s.updLatch h f).live = s.live := rfl
@[simp] theorem updLatch_ecyc (h : HostPort) (f : Latch → Latch) : (s.updLatch h f).ecyc = s.ecyc := rfl
@[simp] theorem updLatch_tb (h : HostPort) (f : Latch → Latch) : (s.updLatch h f).tb = s.tb := rfl
@[simp] theorem updLatch_engLatch (h : HostPort) (f : Latch → Latch) : (s.updLatch h f).engLatch = s.engLatch := rfl
@[simp] theorem updLatch_cut (h : HostPort) (f : Latch → Latch) : (s.updLatch h f).cut = s.cut := rfl
@[simp] theorem updLatch_lastRead (h : HostPort) (f : Latch → Latch) : (s.updLatch h f).lastRead = s.lastRead := rfl
@[simp] theorem updLatch_cntSat (h : HostPort) (f : Latch → Latch) : (s.updLatch h f).cntSat = s.cntSat := rfl
@[simp] theorem updLatch_past (h : HostPort) (f : Latch → Latch) : (s.updLatch h f).past = s.past := rfl
@[simp] theorem updLatch_free (h : HostPort) (f : Latch → Latch) : (s.updLatch h f).free = s.free := rfl
@[simp] theorem updLatch_ports (h : HostPort) (f : Latch → Latch) : (s.updLatch h f).ports = s.ports := rfl
@[simp] theorem updLatch_quads (h : HostPort) (f : Latch → Latch) : (s.updLatch h f).quads = s.quads := rfl
@[simp] theorem updLatch_ring (h : HostPort) (f : Latch → Latch) : (s.updLatch h f).ring = s.ring := rfl
@[simp] theorem updLatch_hosts (h : HostPort) (f : Latch → Latch) : (s.updLatch h f).hosts = s.hosts := rfl
@[simp] theorem updLatch_car (h : HostPort) (f : Latch → Latch) : (s.updLatch h f).car = s.car := rfl
@[simp] theorem updLatch_bark (h : HostPort) (f : Latch → Latch) : (s.updLatch h f).bark = s.bark := rfl
@[simp] theorem updLatch_beams (h : HostPort) (f : Latch → Latch) : (s.updLatch h f).beams = s.beams := rfl
@[simp] theorem updLatch_power (h : HostPort) (f : Latch → Latch) : (s.updLatch h f).power = s.power := rfl
@[simp] theorem updLatch_ofsHost (h : HostPort) (f : Latch → Latch) : (s.updLatch h f).ofsHost = s.ofsHost := rfl
@[simp] theorem updLatch_roundCtr (h : HostPort) (f : Latch → Latch) : (s.updLatch h f).roundCtr = s.roundCtr := rfl
@[simp] theorem updLatch_ringRid (h : HostPort) (f : Latch → Latch) : (s.updLatch h f).ringRid = s.ringRid := rfl
@[simp] theorem updLatch_ringLink (h : HostPort) (f : Latch → Latch) : (s.updLatch h f).ringLink = s.ringLink := rfl
@[simp] theorem updLatch_mw (h : HostPort) (f : Latch → Latch) : (s.updLatch h f).mw = s.mw := rfl
@[simp] theorem updLatch_mp (h : HostPort) (f : Latch → Latch) : (s.updLatch h f).mp = s.mp := rfl
@[simp] theorem updLatch_patch (h : HostPort) (f : Latch → Latch) : (s.updLatch h f).patch = s.patch := rfl
@[simp] theorem updLatch_fuse (h : HostPort) (f : Latch → Latch) : (s.updLatch h f).fuse = s.fuse := rfl
@[simp] theorem updLatch_dir (h : HostPort) (f : Latch → Latch) : (s.updLatch h f).dir = s.dir := rfl
@[simp] theorem updLatch_boot (h : HostPort) (f : Latch → Latch) : (s.updLatch h f).boot = s.boot := rfl
@[simp] theorem updLatch_supply (h : HostPort) (f : Latch → Latch) : (s.updLatch h f).supply = s.supply := rfl

/-! What `spend` leaves alone. -/

@[simp] theorem spend_pending : (s.spend).pending = s.pending := rfl
@[simp] theorem spend_regs : (s.spend).regs = s.regs := rfl
@[simp] theorem spend_live : (s.spend).live = s.live := rfl
@[simp] theorem spend_ecyc : (s.spend).ecyc = s.ecyc := rfl
@[simp] theorem spend_tb : (s.spend).tb = s.tb := rfl
@[simp] theorem spend_latches : (s.spend).latches = s.latches := rfl
@[simp] theorem spend_engLatch : (s.spend).engLatch = s.engLatch := rfl
@[simp] theorem spend_cut : (s.spend).cut = s.cut := rfl
@[simp] theorem spend_lastRead : (s.spend).lastRead = s.lastRead := rfl
@[simp] theorem spend_cntSat : (s.spend).cntSat = s.cntSat := rfl
@[simp] theorem spend_past : (s.spend).past = s.past := rfl
@[simp] theorem spend_ports : (s.spend).ports = s.ports := rfl
@[simp] theorem spend_quads : (s.spend).quads = s.quads := rfl
@[simp] theorem spend_ring : (s.spend).ring = s.ring := rfl
@[simp] theorem spend_hosts : (s.spend).hosts = s.hosts := rfl
@[simp] theorem spend_car : (s.spend).car = s.car := rfl
@[simp] theorem spend_bark : (s.spend).bark = s.bark := rfl
@[simp] theorem spend_beams : (s.spend).beams = s.beams := rfl
@[simp] theorem spend_power : (s.spend).power = s.power := rfl
@[simp] theorem spend_ofsHost : (s.spend).ofsHost = s.ofsHost := rfl
@[simp] theorem spend_roundCtr : (s.spend).roundCtr = s.roundCtr := rfl
@[simp] theorem spend_ringRid : (s.spend).ringRid = s.ringRid := rfl
@[simp] theorem spend_ringLink : (s.spend).ringLink = s.ringLink := rfl
@[simp] theorem spend_mw : (s.spend).mw = s.mw := rfl
@[simp] theorem spend_mp : (s.spend).mp = s.mp := rfl
@[simp] theorem spend_patch : (s.spend).patch = s.patch := rfl
@[simp] theorem spend_fuse : (s.spend).fuse = s.fuse := rfl
@[simp] theorem spend_dir : (s.spend).dir = s.dir := rfl
@[simp] theorem spend_boot : (s.spend).boot = s.boot := rfl
@[simp] theorem spend_supply : (s.spend).supply = s.supply := rfl

/-! What `updSlot` leaves alone. -/

@[simp] theorem updSlot_pending (k : Word) (f : Slot → Slot) : (updSlot s k f).pending = s.pending := rfl
@[simp] theorem updSlot_regs (k : Word) (f : Slot → Slot) : (updSlot s k f).regs = s.regs := rfl
@[simp] theorem updSlot_live (k : Word) (f : Slot → Slot) : (updSlot s k f).live = s.live := rfl
@[simp] theorem updSlot_ecyc (k : Word) (f : Slot → Slot) : (updSlot s k f).ecyc = s.ecyc := rfl
@[simp] theorem updSlot_tb (k : Word) (f : Slot → Slot) : (updSlot s k f).tb = s.tb := rfl
@[simp] theorem updSlot_latches (k : Word) (f : Slot → Slot) : (updSlot s k f).latches = s.latches := rfl
@[simp] theorem updSlot_engLatch (k : Word) (f : Slot → Slot) : (updSlot s k f).engLatch = s.engLatch := rfl
@[simp] theorem updSlot_cut (k : Word) (f : Slot → Slot) : (updSlot s k f).cut = s.cut := rfl
@[simp] theorem updSlot_lastRead (k : Word) (f : Slot → Slot) : (updSlot s k f).lastRead = s.lastRead := rfl
@[simp] theorem updSlot_cntSat (k : Word) (f : Slot → Slot) : (updSlot s k f).cntSat = s.cntSat := rfl
@[simp] theorem updSlot_past (k : Word) (f : Slot → Slot) : (updSlot s k f).past = s.past := rfl
@[simp] theorem updSlot_free (k : Word) (f : Slot → Slot) : (updSlot s k f).free = s.free := rfl
@[simp] theorem updSlot_ports (k : Word) (f : Slot → Slot) : (updSlot s k f).ports = s.ports := rfl
@[simp] theorem updSlot_quads (k : Word) (f : Slot → Slot) : (updSlot s k f).quads = s.quads := rfl
@[simp] theorem updSlot_ring (k : Word) (f : Slot → Slot) : (updSlot s k f).ring = s.ring := rfl
@[simp] theorem updSlot_hosts (k : Word) (f : Slot → Slot) : (updSlot s k f).hosts = s.hosts := rfl
@[simp] theorem updSlot_bark (k : Word) (f : Slot → Slot) : (updSlot s k f).bark = s.bark := rfl
@[simp] theorem updSlot_beams (k : Word) (f : Slot → Slot) : (updSlot s k f).beams = s.beams := rfl
@[simp] theorem updSlot_power (k : Word) (f : Slot → Slot) : (updSlot s k f).power = s.power := rfl
@[simp] theorem updSlot_ofsHost (k : Word) (f : Slot → Slot) : (updSlot s k f).ofsHost = s.ofsHost := rfl
@[simp] theorem updSlot_roundCtr (k : Word) (f : Slot → Slot) : (updSlot s k f).roundCtr = s.roundCtr := rfl
@[simp] theorem updSlot_ringRid (k : Word) (f : Slot → Slot) : (updSlot s k f).ringRid = s.ringRid := rfl
@[simp] theorem updSlot_ringLink (k : Word) (f : Slot → Slot) : (updSlot s k f).ringLink = s.ringLink := rfl
@[simp] theorem updSlot_mw (k : Word) (f : Slot → Slot) : (updSlot s k f).mw = s.mw := rfl
@[simp] theorem updSlot_mp (k : Word) (f : Slot → Slot) : (updSlot s k f).mp = s.mp := rfl
@[simp] theorem updSlot_patch (k : Word) (f : Slot → Slot) : (updSlot s k f).patch = s.patch := rfl
@[simp] theorem updSlot_fuse (k : Word) (f : Slot → Slot) : (updSlot s k f).fuse = s.fuse := rfl
@[simp] theorem updSlot_dir (k : Word) (f : Slot → Slot) : (updSlot s k f).dir = s.dir := rfl
@[simp] theorem updSlot_boot (k : Word) (f : Slot → Slot) : (updSlot s k f).boot = s.boot := rfl
@[simp] theorem updSlot_supply (k : Word) (f : Slot → Slot) : (updSlot s k f).supply = s.supply := rfl

/-! What `clearCnt` leaves alone. -/

@[simp] theorem clearCnt_pending (a : Nat) : (clearCnt s a).pending = s.pending := by simp [clearCnt]
@[simp] theorem clearCnt_live (a : Nat) : (clearCnt s a).live = s.live := by simp [clearCnt]
@[simp] theorem clearCnt_ecyc (a : Nat) : (clearCnt s a).ecyc = s.ecyc := by simp [clearCnt]
@[simp] theorem clearCnt_tb (a : Nat) : (clearCnt s a).tb = s.tb := by simp [clearCnt]
@[simp] theorem clearCnt_latches (a : Nat) : (clearCnt s a).latches = s.latches := by simp [clearCnt]
@[simp] theorem clearCnt_engLatch (a : Nat) : (clearCnt s a).engLatch = s.engLatch := by simp [clearCnt]
@[simp] theorem clearCnt_lastRead (a : Nat) : (clearCnt s a).lastRead = s.lastRead := by simp [clearCnt]
@[simp] theorem clearCnt_cntSat (a : Nat) : (clearCnt s a).cntSat = s.cntSat := by simp [clearCnt]
@[simp] theorem clearCnt_free (a : Nat) : (clearCnt s a).free = s.free := by simp [clearCnt]
@[simp] theorem clearCnt_ports (a : Nat) : (clearCnt s a).ports = s.ports := by simp [clearCnt]
@[simp] theorem clearCnt_quads (a : Nat) : (clearCnt s a).quads = s.quads := by simp [clearCnt]
@[simp] theorem clearCnt_ring (a : Nat) : (clearCnt s a).ring = s.ring := by simp [clearCnt]
@[simp] theorem clearCnt_hosts (a : Nat) : (clearCnt s a).hosts = s.hosts := by simp [clearCnt]
@[simp] theorem clearCnt_car (a : Nat) : (clearCnt s a).car = s.car := by simp [clearCnt]
@[simp] theorem clearCnt_bark (a : Nat) : (clearCnt s a).bark = s.bark := by simp [clearCnt]
@[simp] theorem clearCnt_beams (a : Nat) : (clearCnt s a).beams = s.beams := by simp [clearCnt]
@[simp] theorem clearCnt_power (a : Nat) : (clearCnt s a).power = s.power := by simp [clearCnt]
@[simp] theorem clearCnt_ofsHost (a : Nat) : (clearCnt s a).ofsHost = s.ofsHost := by simp [clearCnt]
@[simp] theorem clearCnt_roundCtr (a : Nat) : (clearCnt s a).roundCtr = s.roundCtr := by simp [clearCnt]
@[simp] theorem clearCnt_ringRid (a : Nat) : (clearCnt s a).ringRid = s.ringRid := by simp [clearCnt]
@[simp] theorem clearCnt_ringLink (a : Nat) : (clearCnt s a).ringLink = s.ringLink := by simp [clearCnt]
@[simp] theorem clearCnt_mw (a : Nat) : (clearCnt s a).mw = s.mw := by simp [clearCnt]
@[simp] theorem clearCnt_mp (a : Nat) : (clearCnt s a).mp = s.mp := by simp [clearCnt]
@[simp] theorem clearCnt_patch (a : Nat) : (clearCnt s a).patch = s.patch := by simp [clearCnt]
@[simp] theorem clearCnt_fuse (a : Nat) : (clearCnt s a).fuse = s.fuse := by simp [clearCnt]
@[simp] theorem clearCnt_dir (a : Nat) : (clearCnt s a).dir = s.dir := by simp [clearCnt]
@[simp] theorem clearCnt_boot (a : Nat) : (clearCnt s a).boot = s.boot := by simp [clearCnt]
@[simp] theorem clearCnt_supply (a : Nat) : (clearCnt s a).supply = s.supply := by simp [clearCnt]

/-! What `backTo` leaves alone. -/

@[simp] theorem backTo_pending (t : Nat) : (backTo s t).pending = s.pending := rfl
@[simp] theorem backTo_regs (t : Nat) : (backTo s t).regs = s.regs := rfl
@[simp] theorem backTo_live (t : Nat) : (backTo s t).live = s.live := rfl
@[simp] theorem backTo_latches (t : Nat) : (backTo s t).latches = s.latches := rfl
@[simp] theorem backTo_engLatch (t : Nat) : (backTo s t).engLatch = s.engLatch := rfl
@[simp] theorem backTo_cut (t : Nat) : (backTo s t).cut = s.cut := rfl
@[simp] theorem backTo_lastRead (t : Nat) : (backTo s t).lastRead = s.lastRead := rfl
@[simp] theorem backTo_cntSat (t : Nat) : (backTo s t).cntSat = s.cntSat := rfl
@[simp] theorem backTo_past (t : Nat) : (backTo s t).past = s.past := rfl
@[simp] theorem backTo_free (t : Nat) : (backTo s t).free = s.free := rfl
@[simp] theorem backTo_ports (t : Nat) : (backTo s t).ports = s.ports := rfl
@[simp] theorem backTo_quads (t : Nat) : (backTo s t).quads = s.quads := rfl
@[simp] theorem backTo_ring (t : Nat) : (backTo s t).ring = s.ring := rfl
@[simp] theorem backTo_hosts (t : Nat) : (backTo s t).hosts = s.hosts := rfl
@[simp] theorem backTo_car (t : Nat) : (backTo s t).car = s.car := rfl
@[simp] theorem backTo_bark (t : Nat) : (backTo s t).bark = s.bark := rfl
@[simp] theorem backTo_beams (t : Nat) : (backTo s t).beams = s.beams := rfl
@[simp] theorem backTo_power (t : Nat) : (backTo s t).power = s.power := rfl
@[simp] theorem backTo_ofsHost (t : Nat) : (backTo s t).ofsHost = s.ofsHost := rfl
@[simp] theorem backTo_roundCtr (t : Nat) : (backTo s t).roundCtr = s.roundCtr := rfl
@[simp] theorem backTo_ringRid (t : Nat) : (backTo s t).ringRid = s.ringRid := rfl
@[simp] theorem backTo_ringLink (t : Nat) : (backTo s t).ringLink = s.ringLink := rfl
@[simp] theorem backTo_mw (t : Nat) : (backTo s t).mw = s.mw := rfl
@[simp] theorem backTo_mp (t : Nat) : (backTo s t).mp = s.mp := rfl
@[simp] theorem backTo_patch (t : Nat) : (backTo s t).patch = s.patch := rfl
@[simp] theorem backTo_fuse (t : Nat) : (backTo s t).fuse = s.fuse := rfl
@[simp] theorem backTo_dir (t : Nat) : (backTo s t).dir = s.dir := rfl
@[simp] theorem backTo_boot (t : Nat) : (backTo s t).boot = s.boot := rfl
@[simp] theorem backTo_supply (t : Nat) : (backTo s t).supply = s.supply := rfl

/-! What `seenBy` leaves alone. -/

@[simp] theorem seenBy_pending (t : State) (all : Bool) : (seenBy s t all).pending = t.pending := by unfold seenBy; split <;> rfl
@[simp] theorem seenBy_regs (t : State) (all : Bool) : (seenBy s t all).regs = t.regs := by unfold seenBy; split <;> rfl
@[simp] theorem seenBy_live (t : State) (all : Bool) : (seenBy s t all).live = t.live := by unfold seenBy; split <;> rfl
@[simp] theorem seenBy_ecyc (t : State) (all : Bool) : (seenBy s t all).ecyc = t.ecyc := by unfold seenBy; split <;> rfl
@[simp] theorem seenBy_tb (t : State) (all : Bool) : (seenBy s t all).tb = t.tb := by unfold seenBy; split <;> rfl
@[simp] theorem seenBy_latches (t : State) (all : Bool) : (seenBy s t all).latches = t.latches := by unfold seenBy; split <;> rfl
@[simp] theorem seenBy_engLatch (t : State) (all : Bool) : (seenBy s t all).engLatch = t.engLatch := by unfold seenBy; split <;> rfl
@[simp] theorem seenBy_lastRead (t : State) (all : Bool) : (seenBy s t all).lastRead = t.lastRead := by unfold seenBy; split <;> rfl
@[simp] theorem seenBy_cntSat (t : State) (all : Bool) : (seenBy s t all).cntSat = t.cntSat := by unfold seenBy; split <;> rfl
@[simp] theorem seenBy_past (t : State) (all : Bool) : (seenBy s t all).past = t.past := by unfold seenBy; split <;> rfl
@[simp] theorem seenBy_free (t : State) (all : Bool) : (seenBy s t all).free = t.free := by unfold seenBy; split <;> rfl
@[simp] theorem seenBy_ports (t : State) (all : Bool) : (seenBy s t all).ports = t.ports := by unfold seenBy; split <;> rfl
@[simp] theorem seenBy_quads (t : State) (all : Bool) : (seenBy s t all).quads = t.quads := by unfold seenBy; split <;> rfl
@[simp] theorem seenBy_ring (t : State) (all : Bool) : (seenBy s t all).ring = t.ring := by unfold seenBy; split <;> rfl
@[simp] theorem seenBy_hosts (t : State) (all : Bool) : (seenBy s t all).hosts = t.hosts := by unfold seenBy; split <;> rfl
@[simp] theorem seenBy_car (t : State) (all : Bool) : (seenBy s t all).car = t.car := by unfold seenBy; split <;> rfl
@[simp] theorem seenBy_bark (t : State) (all : Bool) : (seenBy s t all).bark = t.bark := by unfold seenBy; split <;> rfl
@[simp] theorem seenBy_beams (t : State) (all : Bool) : (seenBy s t all).beams = t.beams := by unfold seenBy; split <;> rfl
@[simp] theorem seenBy_power (t : State) (all : Bool) : (seenBy s t all).power = t.power := by unfold seenBy; split <;> rfl
@[simp] theorem seenBy_ofsHost (t : State) (all : Bool) : (seenBy s t all).ofsHost = t.ofsHost := by unfold seenBy; split <;> rfl
@[simp] theorem seenBy_roundCtr (t : State) (all : Bool) : (seenBy s t all).roundCtr = t.roundCtr := by unfold seenBy; split <;> rfl
@[simp] theorem seenBy_ringRid (t : State) (all : Bool) : (seenBy s t all).ringRid = t.ringRid := by unfold seenBy; split <;> rfl
@[simp] theorem seenBy_ringLink (t : State) (all : Bool) : (seenBy s t all).ringLink = t.ringLink := by unfold seenBy; split <;> rfl
@[simp] theorem seenBy_mw (t : State) (all : Bool) : (seenBy s t all).mw = t.mw := by unfold seenBy; split <;> rfl
@[simp] theorem seenBy_mp (t : State) (all : Bool) : (seenBy s t all).mp = t.mp := by unfold seenBy; split <;> rfl
@[simp] theorem seenBy_patch (t : State) (all : Bool) : (seenBy s t all).patch = t.patch := by unfold seenBy; split <;> rfl
@[simp] theorem seenBy_fuse (t : State) (all : Bool) : (seenBy s t all).fuse = t.fuse := by unfold seenBy; split <;> rfl
@[simp] theorem seenBy_dir (t : State) (all : Bool) : (seenBy s t all).dir = t.dir := by unfold seenBy; split <;> rfl
@[simp] theorem seenBy_boot (t : State) (all : Bool) : (seenBy s t all).boot = t.boot := by unfold seenBy; split <;> rfl
@[simp] theorem seenBy_supply (t : State) (all : Bool) : (seenBy s t all).supply = t.supply := by unfold seenBy; split <;> rfl

/-! What the updates set. -/

@[simp] theorem setRegBit_regs (a i : Nat) (b : Bool) :
    (s.setRegBit a i b).regs = mset resetWord s.regs a (setBit (s.reg a) i b) := rfl

@[simp] theorem setReg_regs (a : Nat) (w : Word) : (s.setReg a w).regs = mset resetWord s.regs a w := rfl
@[simp] theorem setUse_live (a : Nat) (w : Word) : (s.setUse a w).live = mset resetWord s.live a w := rfl
@[simp] theorem spend_free : s.spend.free = s.free + 1 := rfl
@[simp] theorem updSlot_stamp (k : Word) (f : Slot → Slot) : (updSlot s k f).car.lastStamp = s.car.lastStamp := rfl
@[simp] theorem updSlot_entering (k : Word) (f : Slot → Slot) : (updSlot s k f).car.entering = s.car.entering := rfl
@[simp] theorem updSlot_turned (k : Word) (f : Slot → Slot) : (updSlot s k f).car.turned = s.car.turned := rfl
@[simp] theorem updSlot_notices (k : Word) (f : Slot → Slot) : (updSlot s k f).car.notices = s.car.notices := rfl
@[simp] theorem updPort_ports (p : Port) (f : PortSt → PortSt) :
    (s.updPort p f).ports = s.ports.set p (f s.ports[p]) := rfl
@[simp] theorem updQuad_quads (q : Quad) (f : QuadSt → QuadSt) :
    (s.updQuad q f).quads = s.quads.set q (f s.quads[q]) := rfl
@[simp] theorem updHost_hosts (h : HostPort) (f : HpSt → HpSt) :
    (s.updHost h f).hosts = s.hosts.set h (f s.hosts[h]) := rfl
@[simp] theorem updLatch_latches (h : HostPort) (f : Latch → Latch) :
    (s.updLatch h f).latches = s.latches.set h (f s.latches[h]) := rfl

end Sys2Proof.Machine.State
end

