-- ==== Sys2Proof/Laws/Dispatch.lean ====
section
/-! SUPPORT. What a host command's row does, in one lemma for each outcome: it runs its action, it is refused, or it waits
(R346, R351 to R353, R368). -/

namespace Sys2Proof.Machine

variable {s : State} {k : Word} {sl : Slot} {opcOk : Nat → Bool} {chks : State → Slot → List Chk}
  {act : State → Slot → State}

/-- A command that dispatches and passes every check runs its action; its register accesses enter the copy that reads of the
E-cycle see (R408). -/
theorem attempt_runs (hs : findSlot s k = some sl) (ho : opcOk (hdrOpc sl.hdr) = true) (hm : mayDispatch s sl = true)
    (h1 : (opcodeChk s sl).bad = false) (h2 : tagInUse s sl = false) (h3 : firstBad (chks s sl) = none) :
    attempt s k opcOk chks act =
      seenBy s (inCommand s true (fun t => act (startSlot t k) { sl with phase := .executing, dispAt := s.ecyc })) false := by
  simp [attempt, hs, ho, hm, h1, h2, h3]

/-- An action that leaves the register words alone changes nothing that reads see. -/
theorem seenBy_same {t : State} (h : t.regs = s.regs) : seenBy s t false = t := if_pos (Or.inr ⟨rfl, h⟩)

/-- An action that raises no event, and does not look whether events wait, is the command's whole effect (R426). -/
theorem inCommand_plain {b : Bool} {f : State → State} (hc : f (holdEvents s b) = holdEvents (f s) b)
    (hk : (f s).mw.hold = s.mw.hold) : inCommand s b f = f s := by
  unfold inCommand
  rw [hc, ← hk]
  rfl

/-- A command that dispatches and fails a check of its own is refused with that check's status. -/
theorem attempt_refuses {c : Chk} (hs : findSlot s k = some sl) (ho : opcOk (hdrOpc sl.hdr) = true)
    (hm : mayDispatch s sl = true) (h1 : (opcodeChk s sl).bad = false) (h2 : tagInUse s sl = false)
    (h3 : firstBad (chks s sl) = some c) : attempt s k opcOk chks act = refuse s k c false := by
  simp [attempt, hs, ho, hm, h1, h2, h3]

/-- A command whose opcode check fails is refused with BAD_OPCODE. -/
theorem attempt_badOpcode (hs : findSlot s k = some sl) (ho : opcOk (hdrOpc sl.hdr) = true)
    (hm : mayDispatch s sl = true) (h1 : (opcodeChk s sl).bad = true) :
    attempt s k opcOk chks act = refuse s k (opcodeChk s sl) false := by
  simp [attempt, hs, ho, hm, h1]

/-- A command that may not dispatch changes nothing. -/
theorem attempt_waits (hs : findSlot s k = some sl) (hm : mayDispatch s sl = false) :
    attempt s k opcOk chks act = s := by
  simp [attempt, hs, hm]

/-- The slots after an update of one of them. -/
theorem findSlot_updSlot {f : Slot → Slot} (hf : ∀ x, (f x).stamp = x.stamp) :
    findSlot (updSlot s k f) k = (findSlot s k).map f := by
  simp only [findSlot, updSlot]
  induction s.car.slots with
  | nil => rfl
  | cons x t ih =>
    by_cases h : x.stamp = k
    · simp [h, hf]
    · simp [h, ih]

/-- The slot of another command is left alone. -/
theorem findSlot_updSlot_ne {j : Word} {f : Slot → Slot} (hf : ∀ x, (f x).stamp = x.stamp) (hj : j ≠ k) :
    findSlot (updSlot s k f) j = findSlot s j := by
  simp only [findSlot, updSlot]
  induction s.car.slots with
  | nil => rfl
  | cons x t ih =>
    by_cases h : x.stamp = k
    · have hx : x.stamp ≠ j := fun e => hj (e.symm.trans h)
      simp [h, hf, Ne.symm hj, ih]
    · by_cases hx : x.stamp = j
      · simp [hx, hj]
      · simp [h, hx, ih]

end Sys2Proof.Machine
end

