-- ==== Sys2Proof/Laws/Maps.lean ====
section
/-! SUPPORT. What the map operations do: reading back, every other key, and the canonical form they keep. -/

namespace Sys2Proof.Machine

variable {α : Type}

/-- A canonical map may start from any smaller key. -/
theorem mwf_le [DecidableEq α] {d : Nat → α} {m : SMap α} {a b : Nat} (h : a ≤ b) (w : mwf d b m = true) :
    mwf d a m = true := by
  cases m with
  | nil => rfl
  | cons e t =>
    obtain ⟨j, v⟩ := e
    simp only [mwf, Bool.and_eq_true, decide_eq_true_eq] at w ⊢
    exact ⟨⟨by omega, w.1.2⟩, w.2⟩

/-- A key below a canonical map's first key is not listed. -/
theorem mget_below [DecidableEq α] {d : Nat → α} {m : SMap α} {b k : Nat} (h : k < b) (w : mwf d b m = true) :
    mget d m k = d k := by
  induction m generalizing b with
  | nil => rfl
  | cons e t ih =>
    obtain ⟨j, v⟩ := e
    simp [mwf] at w
    have : j ≠ k := by omega
    simp [mget, this]
    exact ih (by omega) w.2

/-- Writing keeps the canonical form. -/
theorem mwf_mset [DecidableEq α] {d : Nat → α} {m : SMap α} {b k : Nat} {v : α} (hb : b ≤ k) (w : mwf d b m = true) :
    mwf d b (mset d m k v) = true := by
  induction m generalizing b with
  | nil => by_cases hv : v = d k <;> simp [mset, mwf, hv, hb]
  | cons e t ih =>
    obtain ⟨j, u⟩ := e
    simp [mwf] at w
    obtain ⟨⟨hj, hu⟩, ht⟩ := w
    unfold mset
    split
    · rename_i hjk
      simp [mwf, hj, hu, ih (by omega) ht]
    · split
      · rename_i hjk heq
        subst heq
        by_cases hv : v = d j
        · simpa [hv] using mwf_le (show b ≤ j + 1 by omega) ht
        · simp [hv, mwf, hb, ht]
      · by_cases hv : v = d k
        · simp [hv, mwf, hj, hu, ht]
        · simp [hv, mwf, hb, hu, ht, show k + 1 ≤ j by omega]

/-- A canonical map reads back what was written, and every other key as before. -/
theorem mget_mset [DecidableEq α] {d : Nat → α} {m : SMap α} {b k a : Nat} {v : α} (w : mwf d b m = true) :
    mget d (mset d m k v) a = if a = k then v else mget d m a := by
  induction m generalizing b with
  | nil =>
    by_cases hv : v = d k
    · by_cases ha : a = k
      · subst ha; simp [mset, mget, hv]
      · simp [mset, mget, hv, ha]
    · by_cases ha : a = k
      · subst ha; simp [mset, mget, hv]
      · simp [mset, mget, hv, ha, Ne.symm ha]
  | cons e t ih =>
    obtain ⟨j, u⟩ := e
    simp [mwf] at w
    obtain ⟨⟨hj, hu⟩, ht⟩ := w
    unfold mset
    split
    · rename_i hjk
      by_cases hja : j = a
      · subst hja; simp [mget]; omega
      · simp [mget, hja, ih ht]
    · split
      · rename_i hjk heq
        subst heq
        by_cases ha : a = j
        · subst ha
          by_cases hv : v = d a
          · simp [hv, mget_below (Nat.lt_succ_self a) ht]
          · simp [hv, mget]
        · by_cases hv : v = d j <;> simp [hv, mget, ha, Ne.symm ha]
      · rename_i h1 h2
        by_cases ha : a = k
        · subst ha
          by_cases hv : v = d a
          · have hja : j ≠ a := by omega
            simp [hv, mget, hja, mget_below (show a < j + 1 by omega) ht]
          · simp [hv, mget]
        · by_cases hv : v = d k <;> simp [hv, mget, ha, Ne.symm ha]

/-- A sorted map may start from any smaller key. -/
theorem msorted_le {m : SMap α} {a b : Nat} (h : a ≤ b) (w : msorted b m = true) : msorted a m = true := by
  cases m with
  | nil => rfl
  | cons e t =>
    obtain ⟨j, v⟩ := e
    simp only [msorted, Bool.and_eq_true, decide_eq_true_eq] at w ⊢
    exact ⟨by omega, w.2⟩

/-- A key below a sorted map's first key is not listed. -/
theorem mfind_below {m : SMap α} {b k : Nat} (h : k < b) (w : msorted b m = true) : mfind m k = none := by
  induction m generalizing b with
  | nil => rfl
  | cons e t ih =>
    obtain ⟨j, v⟩ := e
    simp [msorted] at w
    have : j ≠ k := by omega
    simp [mfind, this]
    exact ih (by omega) w.2

/-- Putting a value in keeps a map sorted. -/
theorem msorted_mput {m : SMap α} {b k : Nat} {v : α} (hb : b ≤ k) (w : msorted b m = true) :
    msorted b (mput m k v) = true := by
  induction m generalizing b with
  | nil => simp [mput, msorted, hb]
  | cons e t ih =>
    obtain ⟨j, u⟩ := e
    simp [msorted] at w
    unfold mput
    split
    · rename_i h
      simp [msorted, w.1, ih (by omega) w.2]
    · split
      · rename_i h1 h2; subst h2; simp [msorted, hb, w.2]
      · simp [msorted, hb, w.2, show k + 1 ≤ j by omega]

/-- A sorted map finds what was put in, and every other key as before. -/
theorem mfind_mput {m : SMap α} {b k a : Nat} {v : α} (w : msorted b m = true) :
    mfind (mput m k v) a = if a = k then some v else mfind m a := by
  induction m generalizing b with
  | nil =>
    by_cases ha : a = k
    · subst ha; simp [mput, mfind]
    · simp [mput, mfind, ha, Ne.symm ha]
  | cons e t ih =>
    obtain ⟨j, u⟩ := e
    simp [msorted] at w
    unfold mput
    split
    · by_cases hja : j = a
      · subst hja; simp [mfind]; omega
      · simp [mfind, hja, ih w.2]
    · split
      · rename_i h1 h2
        subst h2
        by_cases ha : a = j
        · subst ha; simp [mfind]
        · simp [mfind, ha, Ne.symm ha]
      · by_cases ha : a = k
        · subst ha; simp [mfind]
        · simp [mfind, ha, Ne.symm ha]

/-- Taking a key out keeps a map sorted. -/
theorem msorted_mdel {m : SMap α} {b k : Nat} (w : msorted b m = true) : msorted b (mdel m k) = true := by
  induction m generalizing b with
  | nil => rfl
  | cons e t ih =>
    obtain ⟨j, u⟩ := e
    simp [msorted] at w
    unfold mdel
    split
    · exact msorted_le (show b ≤ j + 1 by omega) w.2
    · simp [msorted, w.1, ih w.2]

/-- A sorted map without a key finds every other key as before. -/
theorem mfind_mdel {m : SMap α} {b k a : Nat} (w : msorted b m = true) :
    mfind (mdel m k) a = if a = k then none else mfind m a := by
  induction m generalizing b with
  | nil => simp [mdel, mfind]
  | cons e t ih =>
    obtain ⟨j, u⟩ := e
    simp [msorted] at w
    unfold mdel
    split
    · rename_i h
      subst h
      by_cases ha : a = j
      · subst ha; simp [mfind_below (Nat.lt_succ_self a) w.2]
      · simp [mfind, ha, Ne.symm ha]
    · rename_i h
      by_cases hja : j = a
      · subst hja; simp [mfind, h]
      · simp [mfind, hja, ih w.2]

/-- What a map without defaults finds, it holds. -/
theorem mfind_mem {m : SMap α} {k : Nat} {v : α} (h : mfind m k = some v) : (k, v) ∈ m := by
  induction m with
  | nil => simp [mfind] at h
  | cons e t ih =>
    obtain ⟨j, u⟩ := e
    by_cases hj : j = k
    · simp [mfind, hj] at h
      simp [hj, h]
    · simp [mfind, hj] at h
      simp [ih h]

end Sys2Proof.Machine
end

