-- ==== Sys2Proof/Laws/Ops.lean ====
section
/-! SUPPORT. What the shared operations do, one lemma each: register words, event counters, one port, quad or host port
changed, changes over a list, commands in flight, and the parts of the Midway fabric every event goes through. -/

namespace Sys2Proof.Machine

variable {s : State}

/-! Register words. `regsOk` is the part of `State.mapsOk` these lemmas need. -/

/-- A written register word reads back, and every other word as before. -/
theorem reg_setReg {a b : Nat} {w : Word} (h : mwf resetWord 0 s.regs = true) :
    (s.setReg a w).reg b = if b = a then w else s.reg b := mget_mset h

/-- A write keeps the register map canonical. -/
theorem setReg_regsOk {a : Nat} {w : Word} (h : mwf resetWord 0 s.regs = true) :
    mwf resetWord 0 (s.setReg a w).regs = true := mwf_mset (Nat.zero_le a) h

/-- A value put in use is the one in use, and every other as before. -/
theorem inUse_setUse {a b : Nat} {w : Word} (h : mwf resetWord 0 s.live = true) :
    (s.setUse a w).inUse b = if b = a then w else s.inUse b := mget_mset h

/-- Putting a value in use keeps the map of values in use canonical. -/
theorem setUse_liveOk {a : Nat} {w : Word} (h : mwf resetWord 0 s.live = true) :
    mwf resetWord 0 (s.setUse a w).live = true := mwf_mset (Nat.zero_le a) h

/-- A written bit reads back, and every other word as before. -/
theorem reg_setRegBit {a b i : Nat} {v : Bool} (h : mwf resetWord 0 s.regs = true) :
    (s.setRegBit a i v).reg b = if b = a then setBit (s.reg a) i v else s.reg b := reg_setReg h

/-- A written field reads back, and every other word as before. -/
theorem reg_setRegFld {a b hi lo v : Nat} (h : mwf resetWord 0 s.regs = true) :
    (s.setRegFld a hi lo v).reg b = if b = a then setFld (s.reg a) hi lo v else s.reg b := reg_setReg h

/-! Event counters (R60). -/

/-- Below its largest value a counter counts and nothing else changes. -/
theorem bump_counts {a : Nat} (h : s.reg a ≠ 0xFFFFFFFF) : bump s a = s.setReg a (s.reg a + 1) :=
  if_neg h

/-- At its largest value, with SAT set already, a counter holds; the count is remembered for its E-cycle (R61). -/
theorem bump_holds {a : Nat} (h : s.reg a = 0xFFFFFFFF) (o : s.past.contains a = true) :
    bump s a = { s with cut := if s.cut.at_ = s.ecyc then { s.cut with more := a :: s.cut.more } else s.cut } := by
  simp only [bump, h, o, if_true]

/-- The first count past the largest value sets the SAT flag and makes CNT_SAT due. -/
theorem bump_saturates {a : Nat} (h : s.reg a = 0xFFFFFFFF) (o : s.past.contains a = false) :
    bump s a =
      { ({ s with cut := if s.cut.at_ = s.ecyc then { s.cut with more := a :: s.cut.more } else s.cut } : State).setRegBit
          (satOf a).1 (satOf a).2 true with past := a :: s.past, cntSat := s.cntSat ++ [s.ecyc] } := by
  simp only [bump, h, o, if_true, Bool.false_eq_true, if_false]

/-- A count keeps the register map canonical. -/
theorem bump_regsOk {a : Nat} (h : mwf resetWord 0 s.regs = true) : mwf resetWord 0 (bump s a).regs = true := by
  unfold bump
  dsimp only
  split
  · split
    · exact h
    · exact setReg_regsOk h
  · exact setReg_regsOk h

/-! One port, quad, host port or set of latches changed. -/

theorem updQuad_same (q : Quad) (f : QuadSt → QuadSt) : (s.updQuad q f).quads[q] = f s.quads[q] := by
  simp [State.updQuad]

theorem updQuad_other {q r : Quad} (f : QuadSt → QuadSt) (h : r ≠ q) : (s.updQuad q f).quads[r] = s.quads[r] := by
  have : q.val ≠ r.val := fun e => h (Fin.ext e.symm)
  simp [State.updQuad, this]

theorem updPort_same (p : Port) (f : PortSt → PortSt) : (s.updPort p f).ports[p] = f s.ports[p] := by
  simp [State.updPort]

theorem updPort_other {p r : Port} (f : PortSt → PortSt) (h : r ≠ p) : (s.updPort p f).ports[r] = s.ports[r] := by
  have : p.val ≠ r.val := fun e => h (Fin.ext e.symm)
  simp [State.updPort, this]

theorem updHost_same (x : HostPort) (f : HpSt → HpSt) : (s.updHost x f).hosts[x] = f s.hosts[x] := by
  simp [State.updHost]

theorem updHost_other {x y : HostPort} (f : HpSt → HpSt) (h : y ≠ x) : (s.updHost x f).hosts[y] = s.hosts[y] := by
  have : x.val ≠ y.val := fun e => h (Fin.ext e.symm)
  simp [State.updHost, this]

theorem updLatch_same (x : HostPort) (f : Latch → Latch) : (s.updLatch x f).latches[x] = f s.latches[x] := by
  simp [State.updLatch]

theorem updLatch_other {x y : HostPort} (f : Latch → Latch) (h : y ≠ x) :
    (s.updLatch x f).latches[y] = s.latches[y] := by
  have : x.val ≠ y.val := fun e => h (Fin.ext e.symm)
  simp [State.updLatch, this]

/-! Changes over a list. -/

variable {α : Type}

@[simp] theorem each_nil (f : α → State → State) (s : State) : each [] f s = s := rfl

@[simp] theorem each_cons (x : α) (l : List α) (f : α → State → State) (s : State) :
    each (x :: l) f s = each l f (f x s) := rfl

theorem each_append (l m : List α) (f : α → State → State) (s : State) :
    each (l ++ m) f s = each m f (each l f s) := by simp [each]

/-- What every change of the list keeps, the whole keeps. -/
theorem each_keeps {P : State → Prop} {l : List α} {f : α → State → State} (h : P s)
    (k : ∀ x ∈ l, ∀ t, P t → P (f x t)) : P (each l f s) := by
  induction l generalizing s with
  | nil => exact h
  | cons x l ih =>
    exact ih (k x (by simp) s h) (fun y hy t ht => k y (by simp [hy]) t ht)

/-- A part of the state no change of the list touches is as before. -/
theorem each_same {β : Type} (g : State → β) {l : List α} {f : α → State → State}
    (k : ∀ x ∈ l, ∀ t, g (f x t) = g t) (s : State) : g (each l f s) = g s :=
  each_keeps (P := fun t => g t = g s) rfl (fun x hx t ht => (k x hx t).trans ht)

/-! Commands in flight. -/

/-- Two changes of one command are one change. -/
theorem updSlot_updSlot {k : Word} {f g : Slot → Slot} (hf : ∀ x, (f x).stamp = x.stamp) :
    updSlot (updSlot s k f) k g = updSlot s k (fun x => g (f x)) := by
  simp only [updSlot, List.map_map]
  congr 2
  apply List.map_congr_left
  intro x _
  by_cases h : x.stamp = k <;> simp [h, hf]

/-- What a command owes after it began: one change of its slot, nothing else. -/
theorem owe_startSlot {k : Word} {effs : List (Nat × Effect)} {body : List Word} :
    owe (startSlot s k) k effs body =
      updSlot s k (fun x => { x with phase := .executing, dispAt := s.ecyc, effs := effs, body := body }) :=
  updSlot_updSlot (fun _ => rfl)

/-- A refusal is one change of its slot, nothing else (R346). -/
theorem refuse_updSlot {k : Word} {c : Chk} {tag : Bool} :
    refuse s k c tag = updSlot s k (fun x => { x with
      phase := .executing, dispAt := s.ecyc, status := c.st, pword := BitVec.ofNat 8 c.pw, tagRefused := tag, refused := true,
      ended := true, hasWait := carriesWait (hdrOpc x.hdr), body := bareBody (hdrOpc x.hdr), effs := [(s.ecyc + 8, .none)] }) :=
  updSlot_updSlot (fun _ => rfl)

/-- A refused command's slot: executing, with the check's status, due 8 E-cycles on (R346). -/
theorem findSlot_refuse {k : Word} {c : Chk} {tag : Bool} :
    findSlot (refuse s k c tag) k = (findSlot s k).map (fun x => { x with
      phase := .executing, dispAt := s.ecyc, status := c.st, pword := BitVec.ofNat 8 c.pw, tagRefused := tag, refused := true,
      ended := true, hasWait := carriesWait (hdrOpc x.hdr), body := bareBody (hdrOpc x.hdr), effs := [(s.ecyc + 8, .none)] }) := by
  rw [refuse_updSlot]
  exact findSlot_updSlot (fun _ => rfl)

/-- The first check that fails is one of the checks, and it fails. -/
theorem firstBad_some {l : List Chk} {c : Chk} (h : firstBad l = some c) : c ∈ l ∧ c.bad = true := by
  induction l with
  | nil => simp [firstBad] at h
  | cons x t ih =>
    unfold firstBad at h
    split at h
    · cases h; exact ⟨by simp, ‹_›⟩
    · exact ⟨by simp [(ih h).1], (ih h).2⟩

/-- No check fails exactly when every check holds (R368). -/
theorem firstBad_none {l : List Chk} : firstBad l = none ↔ ∀ c ∈ l, c.bad = false := by
  induction l with
  | nil => simp [firstBad]
  | cons x t ih =>
    unfold firstBad
    cases h : x.bad <;> simp [h, ih]

/-! The parts of the fabric every event goes through. -/

@[simp] theorem mwFresh_regs : (mwFresh s).regs = s.regs := by unfold mwFresh; split <;> rfl
@[simp] theorem mwFresh_ecyc : (mwFresh s).ecyc = s.ecyc := by unfold mwFresh; split <;> rfl
@[simp] theorem mwFresh_car : (mwFresh s).car = s.car := by unfold mwFresh; split <;> rfl
@[simp] theorem mwFresh_quads : (mwFresh s).quads = s.quads := by unfold mwFresh; split <;> rfl
@[simp] theorem mwFresh_delays : (mwFresh s).mw.delays = s.mw.delays := by unfold mwFresh; split <;> rfl
@[simp] theorem mwFresh_eNow : (mwFresh s).mw.eNow = s.ecyc := by
  unfold mwFresh; split
  · assumption
  · rfl

/-- A delay started ends after its loaded length, 0 acting as 1 (R433). -/
theorem dlyStart_ends {k : DelayNo} (h : msorted 0 s.mw.delays = true) :
    mfind (dlyStart s k).mw.delays k.val =
      some (s.ecyc + if (s.reg (0x1050 + k.val)).toNat = 0 then 1 else (s.reg (0x1050 + k.val)).toNat) := by
  simp [dlyStart, mfind_mput h]

/-- A delay stopped is idle, and every other delay as before (R433). -/
theorem dlyStop_idle {k : DelayNo} {j : Nat} (h : msorted 0 s.mw.delays = true) :
    mfind (dlyStop s k).mw.delays j = if j = k.val then none else mfind s.mw.delays j := mfind_mdel h

/-- An output bit is one bit of CH_STAT (R437). -/
theorem outBit_reg {n : BallNo} {b : Bool} {a : Nat} (h : mwf resetWord 0 s.regs = true) :
    (outBit s n b).reg a = if a = aChStat then setBit (s.reg aChStat) (16 + n.val) b else s.reg a := reg_setRegBit h

end Sys2Proof.Machine
end

