-- ==== Sys2Proof/WellFormed.lean ====
section
/-! DEFINITION. Which operand values a command of the table can carry: what the spec says a sender can send, or a unit
can measure. The machine is total on every term; well-formedness only says which terms stand for something. -/

namespace Sys2Proof

namespace Instr

/-- A tuner search has 61 measurements (R254). -/
def wfTune (meas : List TuneMeas) : Bool := meas.length == 61

/-- A command frame carries as many words as its bits need (R322), and BITS saturates at 16,383 (R328). -/
def wfFrame (nbits : Nat) (mosi : List Word) : Bool := mosi.length == (nbits + 31) / 32

/-- An AGC block is 16 samples of 14 bits a component (R160, R236). -/
def wfBlock (l : List Cx) : Bool :=
  l.length == 16 && l.all (fun z => decide (-8192 ≤ z.re ∧ z.re ≤ 8191 ∧ -8192 ≤ z.im ∧ z.im ≤ 8191))

/-- The operands of a command are of the form the spec gives them. -/
def wf : Instr → Bool
  | .tunePort _ meas => wfTune meas
  | .calRun _ meas => decide (meas.length ≤ 16)
  | .receiveStepEnd _ meas => decide (meas.length ≤ 16)
  | .huntStart _ noise => decide (noise.length ≤ 16)
  | .agcBlock _ samples => wfBlock samples
  | .commandFrame _ nbits mosi => wfFrame nbits mosi
  | .readyStretch _ cycles => decide (1 ≤ cycles ∧ cycles ≤ 256)
  | .cuDataWindow _ vals => decide (1 ≤ vals.length ∧ vals.length ≤ 64)
  | .lineFillEnd data => data.length == 64
  | .dirScrub bucket _ => decide (bucket < 65536)
  | .preambleLock _ _ v => decide (v.rest.length < 16)
  | .combinedVerdict _ taps => taps.all (fun l => decide (l.length ≤ 16))
  | _ => true

end Instr

end Sys2Proof
end

