-- ==== Sys2Proof/Tests/Slice0.lean ====
section
/-! SUPPORT. Named tests: for each statement a state and operands that meet its hypotheses, clause by clause; ill-formed
commands that are refused; and the spec's worked examples. -/

namespace Sys2Proof.Tests

-- One theorem at a time, so that no check waits on a thread of its own.
set_option Elab.async false

open Sys2Proof.Machine

/-- An idle device, READY, with HP0 the primary and the timebase running. -/
def idle : State :=
  { State.reset with
    ecyc := 1000000, tb := { State.reset.tb with run := true, now := 6250 },
    hosts := State.reset.hosts.map (fun h => { h with ready := true }),
    boot := { State.reset.boot with stage := .ready } }

/-- The idle device with Q0 and Q1 leased to HP0, both with a channel of 890.625 MHz. -/
def leasedDev : State :=
  { idle with
    regs := [(0x0800, 0x0643D580), (0x0840, 0x0643D580)],
    quads := idle.quads.mapIdx (fun i q => { q with holder := if i < 2 then some 0 else none }) }

/-- Q0 radiates on P0, locked, its token in CONTROL, with a tag selected; Q1 is leased and off. -/
def onAir : State :=
  { leasedDev with
    regs := [(0x0420, 0x00000100), (0x0421, 0x00040000), (0x0800, 0x0643D580), (0x0801, 0x00000001), (0x0805, 0x00010000),
      (0x0840, 0x0643D580)],
    live := [(0x0421, 0x00040000)],
    quads := leasedDev.quads.set 0 { leasedDev.quads[0] with
      token := .control, refreshAt := 999000, field := some 500000, carrierAt := 500048, carrier := true,
      syn := { Syn.reset with powered := true },
      sel := some { name := 5, ticket := 7, rid := 3, st := StPrm.zero } } }

/-- A command frame's header: opcode, TAG 1 and the length of `n` payload words (R344). -/
def mkHdr (opc n : Nat) : Word := BitVec.ofNat 32 (opc * 2 ^ 24 + 0x00100000 + (63 + 32 * n))

/-- A command in flight from HP0 with stamp 0, waiting. -/
def mkSlot (opc : Nat) (ws : List Word) : Slot :=
  { port := 0, hdr := mkHdr opc ws.length, payload := ws, extra := 0, stamp := 0, entryAt := 900000, units := [],
    phase := .waiting, tagRefused := false, refused := false, ended := false, dispAt := 0, effs := [], waits := .nothing, heldAt := none, paused := false, offWatch := 0,
    status := 0, pword := 0, wstep := 0, code := 0, waitE := 0, body := [], early := [], firstSent := none,
    hasWait := false, snap := none, doneAt := 0, openSeqs := 0, ends := [],
    sum := { firstRound := none, rounds := 0, tags := 0, nodes := 0, twins := 0, early := 0, dropouts := 0,
             failedActions := 0, failedInserts := 0, dwells := 0 } }

/-- A device with these commands in flight. -/
def inFlight (s : State) (sls : List Slot) : State := { s with car := { s.car with lastStamp := 0, slots := sls } }

/-- A device with one host command waiting. -/
def cmd (s : State) (opc : Nat) (ws : List Word) : State := inFlight s [mkSlot opc ws]

/-- A command with an executing slot that owes one effect. -/
def owing (s : State) (opc : Nat) (ws : List Word) (d : Nat) (e : Effect) : State :=
  inFlight s [{ mkSlot opc ws with phase := .executing, dispAt := 999000, effs := [(d, e)] }]

/-- The first command in flight. -/
def c0 (s : State) : Slot := match s.car.slots with | x :: _ => x | [] => mkSlot 0 []

/-- The idle device with every quad leased to HP1. -/
def taken : State := { idle with quads := idle.quads.map (fun q => { q with holder := some 1 }) }

/-- The idle device with every quad leased to HP0. -/
def ownAll : State := { idle with quads := idle.quads.map (fun q => { q with holder := some 0 }) }

/-- A command waiting with stamp 0 behind another of the same TAG. -/
def secondTag : State :=
  inFlight idle [{ mkSlot 0 [] with stamp := 9, phase := .executing }, mkSlot 0 []]

/-- A completed command of the previous E-cycle. -/
def finished : State := inFlight idle [{ mkSlot 0 [] with phase := .completed, doneAt := 999999 }]

/-- A command of an empty port's queue whose queue has no place left. -/
def fullUnit : OutUnit :=
  { status := 0, tag := 0, alive := 0, ukind := 0, more := false, order := 0, body := [], queuedAt := 0 }
def fullQueue (s : State) : State :=
  { s with hosts := s.hosts.map (fun h => { h with queue := List.replicate 63 fullUnit }) }

/-- A paused command. -/
def pausedCmd : State := inFlight idle [{ mkSlot 0 [] with phase := .executing, paused := true, dispAt := 900000 }]

/-- A command that has waited for its lock since E-cycle 0. -/
def waitLong : State :=
  inFlight { idle with ecyc := 13000000 } [{ mkSlot 0x21 [0] with phase := .executing, waits := .lock, heldAt := some 0 }]

/-- A frame about to enter, and one turned away. -/
def enteringOne (t : Bool) : Entering :=
  { port := 1, hdr := mkHdr 0 0, payload := [], extra := 0, commitAt := 999994, turned := t }
def entering (t : Bool) : State := { idle with car := { idle.car with entering := [enteringOne t] } }
def turnedOne : Turned := { port := 1, hdr := mkHdr 0 0, stamp := 4, entryAt := 999998 }
def turnedAway : State := { idle with car := { idle.car with turned := [turnedOne] } }

/-- The idle device with host 0 changed. -/
def hp0 (s : State) (f : HpSt → HpSt) : State := { s with hosts := s.hosts.set 0 (f s.hosts[0]) }

/-- HP0 in a transaction of this kind, one unit announced of two queued. -/
def linkIn (k : LinkKind) : State :=
  hp0 idle (fun x => { x with
    sel := true,
    ann := some
      { kind := k, units := if k = .replay then [fullUnit] else [fullUnit].take (if k = .drain then 1 else 0) },
    queue := [fullUnit, { fullUnit with ukind := 5 }], held := if k = .replay then [fullUnit] else [] })

/-- The bits of a NOP frame of HP0 with its CRC, as words. -/
def nopFrame : List Word := [mkHdr 0 0, BitVec.ofNat 32 (crc32 (wordsBits [mkHdr 0 0]))]

/-- HP0 in a COMMAND transaction; `l` is the last committed ALIVE. -/
def frameIn (l : Option (BitVec 4)) : State := hp0 (linkIn .frame) (fun x => { x with aliveLast := l })

/-- A repeat waits for its original, which has finished. -/
def lastDone : LastCmd := { stamp := 0, hdr := mkHdr 0 0, done := true, status := 0, first := none, multi := false }
def dupDue : State := hp0 idle (fun x => { x with last := some lastDone, dupOf := some lastDone })

/-- The memory bus owned since E-cycle 990,000. -/
def busWith (s : State) (r : BusReq) : State := { s with mp := { s.mp with owner := some r, grantAt := 990000 } }

/-- An MP_XFER that owns the bus. -/
def xferOwns : State :=
  busWith (inFlight idle [{ mkSlot 0x80 [0x20, 0] with phase := .executing, dispAt := 989000, waits := .bus }]) (.xfer 0)

/-- MREADY in use while an exit sequence owns the bus. -/
def mreadyUse : State := { busWith idle (.exit false) with regs := [(0x1800, 1), (0x1801, 0x1000)] }

/-- A request that waits for a free bus. -/
def askingBus : State := { idle with mp := { idle.mp with waiting := [(.exit false, 990000)] } }

/-- The patch loader on, with the window off: it reads erased bytes. -/
def patchOn : State := { idle with regs := [(0x1803, 0)], mp := { idle.mp with patch := { EngSt.reset with on := true } } }
def tableOn : State :=
  { idle with regs := [(0x1803, 0)], mp := { idle.mp with table := { EngSt.reset with on := true, want := 64 } } }
def tableNamed : State := { idle with boot := { idle.boot with tableOff := some 64, dueAt := 900000 } }

/-- A patch image in both banks. -/
def image1 : Image := { ident := 1, len := 0, body := [] }
def patched : State := { idle with patch := { idle.patch with bank0 := some image1, bank1 := some image1 } }
def swapWaits : State :=
  inFlight patched [{ mkSlot 0xA1 [] with phase := .executing, waits := .rounds, dispAt := 990000 }]

/-- Every row of the journal used. -/
def journalFull : State :=
  { idle with fuse := { idle.fuse with rows := [(63, journalRecord 1 0 0x0FA00000 0)] } }

/-- A row that has been programmed long enough, of each setting. -/
def rowDone (n : Nat) (v : Word) : State :=
  { idle with boot := { idle.boot with prog := some { row := 0, rec_ := journalRecord n 0 v 0, beginAt := 0, stamp := 0 } } }
def progOf (n : Nat) (v : Word) : Prog := { row := 0, rec_ := journalRecord n 0 v 0, beginAt := 0, stamp := 0 }

/-- The boot in one of its stages. -/
def booting (g : Stage) : State :=
  { idle with
    boot := { idle.boot with stage := g, dueAt := 900000 }
    tb := { idle.tb with run := decide (g ≠ .held ∧ g ≠ .released) } }

/-- A line held in the buffer. -/
def lineWith (bs : List Byte) : Line := { idx := 0, addr := 0, data := bs, validAt := 900000 }
def headerHeld (bs : List Byte) : State := { booting .header with mp := { idle.mp with lines := [lineWith bs] } }
def bootRead : State :=
  { booting .patch with mp := { idle.mp with boot := { EngSt.reset with bytes := List.replicate 12 0, want := 12 } } }

/-- FIELD_ON's command as its drivers are enabled, and the same in flight. -/
def fieldCmd : State := owing leasedDev 0x22 [1] 999990 .check

/-- A quad of the device changed. -/
def quad0 (s : State) (f : QuadSt → QuadSt) : State := { s with quads := s.quads.set 0 (f s.quads[0]) }
def port0 (s : State) (f : PortSt → PortSt) : State := { s with ports := s.ports.set 0 (f s.ports[0]) }

/-- One calibration, lock or step under way on Q0. -/
def locking : State := quad0 leasedDev (fun q => { q with syn := { q.syn with powered := true, lockFrom := some 900000 } })
def calibrating : State := quad0 leasedDev (fun q => { q with syn := { q.syn with powered := true, calFrom := some 900000 } })
def stale : State := quad0 onAir (fun q => { q with refreshAt := 990000 })
def cutDue : State := quad0 onAir (fun q => { q with cutFrom := some 999999 })
def rampDue : State := quad0 onAir (fun q => { q with rampAt := some 999999 })

/-- An idle gap in which the Juggler may calibrate the band of Q0. -/
def bandGap : State :=
  quad0 { leasedDev with regs := [(0x0800, 0x0643D580), (0x0840, 0x0643D580)] }
    (fun q => { q with jug := { q.jug with gap := 1, gapAt := 900000 } })

/-- A quiet gap in which the receive calibration may take its next step. -/
def stepGap : State :=
  quad0 { onAir with live := [(0x0421, 0x00040000)] }
    (fun q => { q with jug := { q.jug with gap := 2, gapAt := 900000, steps := 1 } })
def stepping : State := quad0 onAir (fun q => { q with jug := { q.jug with stepFrom := some 990000, steps := 1 } })
def seqOld : State := quad0 { onAir with ecyc := 250000000 } (fun q => { q with jug := { q.jug with steps := 1 } })
def retrying : State := quad0 onAir (fun q => { q with jug := { q.jug with retryAt := 999000 } })
def tempTime : State := { idle with ecyc := 4 * 245760 }

/-- Barker armed on P0 and P1, at the first slot. -/
def armed : State :=
  { leasedDev with
    regs := [(0x0800, 0x0643D580), (0x0801, 0x00000001), (0x0840, 0x0643D580)],
    bark := { leasedDev.bark with armed := 3, periodAt := 990000 } }
def bursting : State := port0 { armed with ecyc := 990000 + 122880 } (fun p => { p with burst := some 990000 })

/-- A round job on Q0 of an ST_ROUND in flight, with its next frame planned. -/
def roundSlot : Slot := { mkSlot 0x40 [1, 100, 0] with phase := .executing, dispAt := 990000, waits := .air, openSeqs := 1 }
def roundJob0 : Job := { newJob roundSlot false (roundPrm roundSlot) (IsoPrm.zero .reset) .wake with beams := [0] }
def isoJob0 : Job := newJob (mkSlot 0x51 [0x60, 0, 0, 5, 0, 0x01000000]) true StPrm.zero (IsoPrm.zero .reset) (.gSelect 0)
def dueFrame : NextFrame := { notBefore := 999990, past := false, ref := 990000 }

/-- The device on air with a job on Q0. -/
def jobAt (j : Job) (n : Option NextFrame) : State :=
  quad0 (inFlight onAir [{ roundSlot with hdr := j.hdr }]) (fun q => { q with job := some j, next := n })

/-- An exchange of Q0 in a phase, its frame ended at 990,000, its last chip period 60 E-cycles. -/
def exch0 (p : RxPhase) (e : Expect) : Exch :=
  { iso := false, startAt := 980000, endAt := 990000, chip := 60, cs := 0, link := .reset, t1Min := 0, t1Max := 0,
    depth := 90, ramp := 3072, hasCrc := false, expects := e, kinds := [0, 1, 2, 3, 4], phase := p, deadline := 998000,
      refAt := 990000, verdicts := [], valid := [], failed := [], bit := none, e0 := 0, e1 := 0, outAt := none }
def inRoundJob : Job := { roundJob0 with inRound := true, roundNo := 1, dwellAt := some 2000000 }
def airWith (x : Exch) : State := quad0 (jobAt inRoundJob none) (fun q => { q with exch := some x })

/-- A candidate of P0, locked at 995,000, with or without sync. -/
def cand0 (y : Option Nat) : Cand :=
  { tz := false, lockAt := 995000, power := { num := 1000, den := 1 }, timing := 0, coarse := 0, due := 1020000, freq := 0,
    sync := y, syncTb := 0, replayAt := 995000 }
def chained (x : Exch) (c : Cand) (b : Option Cand) : State :=
  port0 { airWith x with live := [(0x0410, 0x01000000), (0x0421, 0x00040000)] } (fun p => { p with recv := some c, standby := b })

/-- A port verdict of a frame whose CRC failed, and one of a valid frame. -/
def verdict0 (ok : Bool) : Verdict :=
  { port := 0, at_ := 996000, sync := 995500, ok := ok, rx := .stamet 0x20 [] 0, pilots := [], step := 0, freq := 0 }

/-- A tag seen: its sighting, its update, its entry and its action record. -/
def sight0 : Sight :=
  { name := 5, iso := false, stamp := 77, hdr := mkHdr 0x40 3, host := 0, all := true, job := 0, round := some 1, twin := false,
    group := 0, best := 2, rssi := 9, taps := [], vAt := 990000, doppler := true }
def upd0 : Upd := { s := sight0, fitEnd := 991200, az := 0x8000, el := 0x8000, ambig := false, dop := 0x8000 }
def home5 : Nat := 4 * (bucketsOf .cx1664 5).1
def withEntry (s : State) : State := { s with dir := { s.dir with entries := [(home5, freshEntry 5 true)] } }
def act0 : ActRec :=
  { job := 0, hdr := mkHdr 0x40 3, host := 0, group := 0, iso := false, sense := false, status := 0, code := 0, name := 5,
    round := 1, data := [1, 2], readyAt := 999990, handle := some 4, quad := 0 }

/-- A scan with one item a unit, of a DIR_STREAM. -/
def scan0 (e : Option Nat) : Scan :=
  { stamp := 0, items := [([1], 0), ([2], 1)], per := 1, beginAt := 990000, paused := 0, pauseFrom := e, early := [], ecc := [] }
def scanning : State :=
  { owing idle 0x61 [0] 2000000 .none with dir := { idle.dir with scan := some (scan0 none) } }

/-- The device as one ring, all of it under control. -/
def ringDev : State :=
  { ownAll with
    ring := true
    quads := ownAll.quads.map (fun q => { q with token := .control, refreshAt := 997000, field := some 500000 }) }

/-- An event counter at its largest value, before and after its first count past it. -/
def cntFull : State := { idle with regs := [(0x0102, 0xFFFFFFFF)] }
def cntOver : State := { cntFull with past := [0x0102] }

/-- The state of an answer. -/
def after (o : Host.Outcome State Fault Refusal) : State := match o with | .next t => t | _ => State.reset

/-- Chips as a port with a chip of 60 E-cycles holds them, four samples each, the last chip ending at `e`. -/
def heardChips (e : Nat) (a : Int) (chips : List Bool) : RxBlock :=
  { from_ := e - 60 * chips.length, xs := chips.flatMap (fun b => List.replicate 4 { re := chipSign b * a, im := 0 }) }

/-- P0 has heard `n` symbols of CP of code set 0 up to `e`. -/
def heardCp (s : State) (e n : Nat) (a : Int) : State :=
  port0 s (fun p => { p with buf := (List.range n).map (fun i => heardChips (e - 960 * i) a (codeChips (codeCp 0))) })

/-- P0 has heard the on and off chips of bit replies of these two codes together, from the first offset on, 4,669 E-cycles
after their frame's end. -/
def heardBits (s : State) (c0 c1 : Int) : State :=
  port0 s (fun p => { p with buf := [{
    from_ := 990000 + 4669
    xs := (List.zip (bitReplyChips false) (bitReplyChips true)).flatMap (fun b =>
      List.replicate 4 { re := c0 * b2n b.1 + c1 * b2n b.2, im := 0 }) }] })

/-! ## States named after the witness that uses them -/

def atStepRunsFront : State := {idle with pending := [.nop 0]}
def atRefusedOpcode : State := cmd { idle with boot := { idle.boot with primary := 1 } } 0x93 [1]
def atCounterCleared : State := { idle with regs := [(0x0102, 9)] }
def atGeomApplies : State := { idle with regs := [(0x0430, 0x00010002), (0x0431, 0x00018003)] }
def atEventMarks : State := { idle with regs := [(0x1000, 0x01000001)] }
def atOutputFires1 : State := { idle with mw := { idle.mw with delays := [(2, 999000)] } }
def atOutputFires2 : State := { idle with cntSat := [999990] }
def atOutputFires4 : State := { idle with mw := { idle.mw with clocked := [(3, 1, 999990)] } }
def atTick : State := { idle with tb := { idle.tb with now := 6249 } }
def atWrap : State := { idle with ecyc := 160 * 2 ^ 48, tb := { idle.tb with now := 0xFFFFFFFFFFFF } }
def atCrcStarts : State := { idle with regs := [(0x1461, 7)] }
def atPinWord : State := hp0 idle (fun x => { x with sel := true })
def atPinIrq : State := hp0 idle (fun x => { x with irqDue := [(999996, true)] })
def ceilinged : State := { onAir with boot := { onAir.boot with ceiling := 0x00040000 } }
def atTokenRefreshed : State := { stale with ecyc := 993000 }
def atBarkerSkips : State := { armed with regs := [] }
def atRfcSaturates : State := port0 onAir (fun p => { p with rfcRunI := 16 })
def atChainLocks : State := airWith { exch0 .hunt (.frame 9) with deadline := 1100000 }
def atChainLocksExchange : Exch := { exch0 .hunt (.frame 9) with deadline := 1100000 }
def atChainSyncs : State := heardCp (chained { exch0 .hunt (.frame 9) with deadline := 1100000 } { cand0 none with lockAt := 984556 } none) 999916 17 100
def atChainSyncsCandidate : Cand := { cand0 none with lockAt := 984556 }
def atChainFails : State := chained (exch0 .hunt (.frame 9)) { cand0 none with lockAt := 960000, due := 980160 } none
def atChainFailsCandidate : Cand := { cand0 none with lockAt := 960000, due := 980160 }
def atPilotFails : State := chained { exch0 .hunt (.frame 9) with chip := 10 } (cand0 (some 995500)) none
def atPilotFailsExchange : Exch := { exch0 .hunt (.frame 9) with chip := 10 }
def atVerdictBad : State :=
  { chained { exch0 .hunt (.frame 9) with chip := 3 } (cand0 (some 995500)) none with ecyc := 1100000 }
def atVerdictBadExchange : Exch := { exch0 .hunt (.frame 9) with chip := 3 }
def atCombines : State := airWith { exch0 .hunt (.frame 9) with verdicts := [verdict0 true] }
def atCombinesExchange : Exch := { exch0 .hunt (.frame 9) with verdicts := [verdict0 true] }
def atCombinesF : State := airWith { exch0 .hunt (.frame 9) with verdicts := [verdict0 false] }
def atCombinesFExchange : Exch := { exch0 .hunt (.frame 9) with verdicts := [verdict0 false] }
def atExchangeEnds : State := airWith { exch0 .finish .bit with outAt := some 999990, bit := some .none }
def atExchangeEndsExchange : Exch := { exch0 .finish .bit with outAt := some 999990, bit := some .none }
def atDwellEnds : State := jobAt { inRoundJob with dwellAt := some 999000 } (some dueFrame)
def atDwellEndsJob : Job := { inRoundJob with dwellAt := some 999000 }
def atRoundEnds : State := jobAt inRoundJob (some { dueFrame with past := true })
def atRoundEndsNext : NextFrame := { dueFrame with past := true }
def atRoundEndsLast : State := jobAt { inRoundJob with sweeps := 1 } (some { dueFrame with past := true })
def atRoundEndsLastJob : Job := { inRoundJob with sweeps := 1 }
def atUpdateStarts : State := { idle with dir := { idle.dir with fifo := [sight0] } }
def atSightingApplied : State := { withEntry idle with dir := { (withEntry idle).dir with upd := some upd0 } }
def atActionQueued : State := { idle with dir := { idle.dir with acts := [act0] } }
def atAbsentQuad : State := { idle with fuse := { idle.fuse with variant := .cx0416 } }
def atRidSkips : State := quad0 idle (fun q => { q with lastRid := 1 })
def atStandbySyncs : State := heardCp (chained { exch0 .hunt (.frame 9) with deadline := 1100000 } { cand0 none with lockAt := 983000 } (some { cand0 none with tz := true, lockAt := 984556 })) 999916 17 100
def atStandbySyncsCandidate : Cand := { cand0 none with lockAt := 983000 }
def atStandbySyncsCandidate2 : Cand := { cand0 none with tz := true, lockAt := 984556 }
def atBarkerCeiling : State := owing { leasedDev with boot := { leasedDev.boot with ceiling := 0x00040000 } } 0x28 [1] 1000024 .barkerArm

/-- The table loader, a directory step, and the Juggler's step on Q0 and calibration on Q1, all begun long ago. -/
def wedged : State :=
  { idle with
    ecyc := 20000000, mp := { idle.mp with table := { EngSt.reset with on := true, want := 8 } },
    dir := { idle.dir with upd := some upd0 },
    quads := (idle.quads.set 0 { idle.quads[0] with jug := { idle.quads[0].jug with stepFrom := some 900000 } }).set 1
      { idle.quads[1] with
        syn := { idle.quads[1].syn with calFrom := some 900000 }, jug := { idle.quads[1].jug with calWas := some 7 } } }

/-- Levels of MW_IN1 sampled: high since E-cycle 999,990, and high for the first time two E-cycles ago. -/
def inHigh : State := { idle with mw := { idle.mw with ins := [(1, true, 999990)] } }
def inDue : State := { idle with mw := { idle.mw with ins := [(1, true, 999998)] } }

/-- MREADY low, for 100 E-cycles and for longer than it may be. -/
def mreadyLow (e : Nat) : State := { mreadyUse with ecyc := e, mp := { mreadyUse.mp with low := some 990144 } }

/-- A line of the loaders' held, with the window on. -/
def lineHeld : State :=
  { idle with
    regs := [(0x1803, 1)]
    mp := { idle.mp with
      lines := [lineWith (List.replicate 64 0)], patch := { EngSt.reset with on := true }, table := { EngSt.reset with on := true, want := 64 } } }
def hit0 : XipHit := { addr := 0, data := [1, 2, 3, 4], at_ := 900000 }
def withHit (s : State) : State :=
  { s with mp := { s.mp with patch := { s.mp.patch with hits := [hit0] }, table := { s.mp.table with hits := [hit0] } } }

/-- A calibrated receive sequence at the end of its last step. -/
def lastStep : State := quad0 onAir (fun q => { q with jug := { q.jug with stepFrom := some 990000, steps := 3 } })

/-- A ramp, a cut and a stale token of the ring. -/
def ringRamp : State := quad0 ringDev (fun q => { q with rampAt := some 999999 })
def ringCut : State := quad0 ringDev (fun q => { q with cutFrom := some 999999 })
def ringStale : State := { ringDev with quads := ringDev.quads.map (fun q => { q with refreshAt := 990000 }) }
def ringLocked : State := { ringDev with regs := [(0x0801, 1)] }

/-- Barker's last slot of Q0 over. -/
def slotsOver : State := { armed with ecyc := slotAt armed 1 + 122880 }

/-- A burst of P0 whose Γ is 2^29 / 2^30, with a baseline; BARK by `b`. -/
def base0 : Gamma := { re := 536870912, im := 0, exp := 30 }
def based (b : Bool) : State :=
  port0 { bursting with regs := mset resetWord bursting.regs 0x042B (if b then 0x100 else 0) } (fun p =>
    { p with base := some base0 })

/-- Four steps of CAL_RUN RX on Q0, and its last effects. -/
def calDev : State := { onAir with regs := mset resetWord onAir.regs 0x0801 1 }
def txMeas : List PortCal := [{ port := 0, phase := 5, level := 0, qAbove := 0, qShort := 0, img := 0, overload := false }]

def calOwes (w : Word) (effs : List (Nat × Effect)) : State :=
  inFlight calDev [{ mkSlot 0x30 [w] with phase := .executing, dispAt := 980000, hasWait := true, effs := effs }]

def atDelayRestarted : State := { idle with mw := { idle.mw with ended := [(2, 999000)] } }
def atLevelLow : State := { onAir with live := [(0x0421, 0x0007FC00)] }

/-- A command in flight that owes its last effect, due in E-cycle `d`, with everything else met. -/
def LastDue (s : State) (d : Nat) (e : Effect) : Prop :=
  Due s 0 (c0 s) d e [] ∧ (c0 s).waits = .nothing ∧ (c0 s).early = [] ∧ s.mapsOk = true ∧ s.tb.run = true

/-- The device as the owed effect of the command with stamp 0 meets it. -/
def metBy (s : State) (d : Nat) : State := backTo (updSlot s 0 (fun x => { x with effs := [] })) d

/-- A lock that ends, with one command waiting for it. -/
def lockWaited (s : State) (opc : Nat) : State :=
  inFlight (quad0 s (fun q => { q with syn := { q.syn with powered := true, lockFrom := some 900000 } }))
    [{ mkSlot opc [0] with units := [.quad 0], phase := .executing, waits := .lock }]

/-- An MP_XFER and an MP_MAP about to complete, with a line held. -/
def memOwing (opc : Nat) (w : Word) (e : Effect) : State :=
  { owing idle opc [w, 64] 999990 e with mp := { idle.mp with lines := [{ idx := 0, addr := 0, data := [], validAt := 0 }] } }

/-- A patch image as the loader has read it, or bytes that are none. -/
def patchRead (bs : List Byte) : State :=
  { owing idle 0xA0 [0] 999990 .patchDone with mp := { idle.mp with patch := { EngSt.reset with bytes := bs } } }

/-- A row whose programming a REGION_SET waits for. -/
def rowWaited : State :=
  { inFlight idle [{ mkSlot 0x91 [0x0FA00001] with phase := .executing, waits := .row, units := [.journal] }] with
    boot := { idle.boot with prog := some (progOf 1 0x0FA00001) } }

/-- A directory command that waits for its scan, which has read every bucket. -/
def scanOver : State :=
  { inFlight idle [{ mkSlot 0x61 [0] with phase := .executing, waits := .scan }] with
    dir := { idle.dir with scan := some { scan0 none with beginAt := 100, per := 27 } } }

/-- The noise floor of P0 measured. -/
def quietRx (s : State) : State := port0 s (fun p => { p with noise := { num := 1, den := 1 } })

/-- A run of equal symbols, and a lock's measure with them. -/
def symbols (n : Nat) (a : Int) : List Cx := List.replicate n { re := a, im := 0 }
def lockMeas0 : LockMeas :=
  { rest := [], syms := symbols 8 1000, freq := 0, left := 0 }

/-- A lock at 995,000 of little power, with or without sync, on P0's chain as a louder one locks. -/
def weak (y : Option Nat) : Cand := { cand0 y with power := { num := 10000, den := 1 }, timing := 995300 }
def occupied (y : Option Nat) : State := quietRx (chained atChainLocksExchange (weak y) none)

/-- An ISO/IEC 18000-63 exchange whose reply may begin up to 100,000 E-cycles after its frame. -/
def isoExch : Exch := { exch0 .hunt (.frame 0) with iso := true, deadline := 1100000, t1Max := 100000 }
def isoLock : Cand := { cand0 none with lockAt := 990000, freq := 25000000, due := 1000000 }
def isoSynced : Cand := { isoLock with sync := some 995500 }
def isoHeard : State := chained isoExch isoSynced none
def isoSymbols : LockMeas := { lockMeas0 with freq := 213333, left := 4 }

/-! ## Witnesses of the statements' hypotheses -/

theorem witness_StepRunsTheFront :
    (atStepRunsFront.pending = [Instr.nop 0]) := by
  decide +kernel

theorem witness_TimePassesAndTheTimebaseCounts :
  ((idle.pending = []) ∧ (idle.tb.run = true)) ∧
  ((State.reset.pending = []) ∧ (State.reset.tb.run = false)) ∧
  ((idle.tb.run = true) ∧ (idle.mapsOk = true)) ∧
  ((atTick.tb.run = true) ∧ (atTick.mapsOk = true) ∧ (edgePending atTick = true) ∧ atTick.tb.now ≠ 281474976710655) ∧
  ((atWrap.tb.run = true) ∧ (atWrap.mapsOk = true) ∧ (edgePending atWrap = true) ∧ (atWrap.tb.now =
    281474976710655)) := by
  refine ⟨?_, ?_, ?_, ?_, ?_⟩ <;> decide +kernel

theorem witness_ResetIsEmptyAndCanonical :
    ({ State.reset with supply := { State.reset.supply with range := none } } : State).supply.range = none :=
  rfl

theorem witness_DispatchChecksRefuse :
  ((hostRow (Instr.roleSet 0) = some (0, 147, chkRoleSet)) ∧ (findSlot atRefusedOpcode 0 = some (mkSlot 147 [1])) ∧
    (hdrOpc (mkSlot 147 [1]).hdr = 147) ∧ (mayDispatch atRefusedOpcode (mkSlot 147 [1]) = true) ∧ ((opcodeChk
    atRefusedOpcode (mkSlot 147 [1])).bad = true)) ∧
  ((hostRow (Instr.nop 0) = some (0, 0, chkNop)) ∧ (findSlot secondTag 0 = some (mkSlot 0 [])) ∧ (hdrOpc (mkSlot 0
    []).hdr = 0) ∧ (mayDispatch secondTag (mkSlot 0 []) = true) ∧ ((opcodeChk secondTag (mkSlot 0 [])).bad = false)
    ∧ (tagInUse secondTag (mkSlot 0 []) = true)) ∧
  ((hostRow (Instr.nop 0) = some (0, 0, chkNop)) ∧ (findSlot (cmd idle 0 [5]) 0 = some (mkSlot 0 [5])) ∧ (hdrOpc
    (mkSlot 0 [5]).hdr = 0) ∧ (mayDispatch (cmd idle 0 [5]) (mkSlot 0 [5]) = true) ∧ ((opcodeChk (cmd idle 0 [5])
    (mkSlot 0 [5])).bad = false) ∧ (tagInUse (cmd idle 0 [5]) (mkSlot 0 [5]) = false) ∧ (firstBad (chkNop (cmd idle
    0 [5]) (mkSlot 0 [5])) = some { bad := true, st := stBadLength, pw := 1 })) ∧
  ((hostRow (Instr.nop 0) = some (0, 0, chkNop)) ∧ (findSlot idle 0 = none)) ∧
  ((hostRow (Instr.nop 0) = some (0, 0, chkNop)) ∧ (findSlot finished 0 = some (c0 finished)) ∧ (mayDispatch
    finished (c0 finished) = false)) ∧
  ((findSlot (cmd idle 127 []) 0 = some (mkSlot 127 [])) ∧ (isAssigned (hdrOpc (mkSlot 127 []).hdr) = false) ∧
    (mayDispatch (cmd idle 127 []) (mkSlot 127 []) = true)) := by
  refine ⟨?_, ?_, ?_, ?_, ?_, ?_⟩ <;> (first | decide +kernel | (simp only [hostRow]; decide +kernel))

theorem witness_SystemReadsRun :
  (Starts (Instr.nop 0) (cmd idle 0 []) (mkSlot 0 [])) ∧
  (Starts (Instr.getCaps 0) (cmd idle 1 []) (mkSlot 1 [])) ∧
  (Starts (Instr.snapshot 0) (cmd idle 3 []) (mkSlot 3 [])) ∧
  (Starts (Instr.getStatus 0) (cmd idle 2 [2047]) (mkSlot 2 [2047]) ∧ (cmd idle 2 [2047]).mapsOk = true) := by
  refine ⟨?_, ?_, ?_, ?_⟩ <;> (first | decide +kernel | (simp only [Starts, hostRow]; decide +kernel))

theorem witness_LeasesAreGrantedAndReleased :
  (Starts (Instr.lease 0) (cmd idle 4 [3]) (mkSlot 4 [3]) ∧ (((spreadMask (cmd idle 4 [3]) (fld (pw (mkSlot 4 [3])
    0) 3 0)).any fun q => (cmd idle 4 [3]).quads[q].holder.isSome && (cmd idle 4 [3]).quads[q].holder != some
    (mkSlot 4 [3]).port) = false)) ∧
  (Starts (Instr.lease 0) (cmd taken 4 [3]) (mkSlot 4 [3]) ∧ (((spreadMask (cmd taken 4 [3]) (fld (pw (mkSlot 4
    [3]) 0) 3 0)).any fun q => (cmd taken 4 [3]).quads[q].holder.isSome && (cmd taken 4 [3]).quads[q].holder != some
    (mkSlot 4 [3]).port) = true)) ∧
  (Due (owing idle 4 [3] 999990 (Effect.lease 3)) 0 (c0 (owing idle 4 [3] 999990 (Effect.lease 3))) 999990
    (Effect.lease 3) [] ∧ ((c0 (owing idle 4 [3] 999990 (Effect.lease 3))).waits = Await.nothing) ∧ ((owing idle 4
    [3] 999990 (Effect.lease 3)).tb.run = true)) ∧
  (Starts (Instr.unlease 0) (cmd onAir 5 [1]) (mkSlot 5 [1])) := by
  refine ⟨?_, ?_, ?_, ?_⟩ <;> (first | decide +kernel | (simp only [Starts, hostRow, Due]; decide +kernel))

theorem witness_OwedEffectsComplete :
  (Due (owing idle 17 [73736, 5] 999990 Effect.regWrite) 0 (c0 (owing idle 17 [73736, 5] 999990 Effect.regWrite))
    999990 Effect.regWrite []) ∧
  (Due (owing idle 0 [] 999990 Effect.none) 0 (c0 (owing idle 0 [] 999990 Effect.none)) 999990 Effect.none [] ∧
    ((c0 (owing idle 0 [] 999990 Effect.none)).waits = Await.nothing) ∧ ((c0 (owing idle 0 [] 999990
    Effect.none)).early = []) ∧ ((owing idle 0 [] 999990 Effect.none).tb.run = true) ∧ hdrOpc (c0 (owing idle 0 []
    999990 Effect.none)).hdr ≠ 32 ∧ hdrOpc (c0 (owing idle 0 [] 999990 Effect.none)).hdr ≠ 33 ∧ hdrOpc (c0 (owing
    idle 0 [] 999990 Effect.none)).hdr ≠ 48 ∧ (unitsOwed (c0 (owing idle 0 [] 999990 Effect.none)) ≤ placesFree
    (owing idle 0 [] 999990 Effect.none) (c0 (owing idle 0 [] 999990 Effect.none)).port)) ∧
  (placesFree (fullQueue (owing idle 0 [] 999990 Effect.none)) 0 < unitsOwed (c0 (owing idle 0 [] 999990 Effect.none))) ∧
  ((findSlot pausedCmd 0 = some (c0 pausedCmd)) ∧ ((c0 pausedCmd).paused = true) ∧ ((c0 pausedCmd).waits =
    Await.nothing) ∧ (unitsOwed (c0 pausedCmd) ≤ placesFree pausedCmd (c0 pausedCmd).port)) ∧
  ((waitLong.mapsOk = true) ∧ (findSlot waitLong 0 = some (c0 waitLong)) ∧ (watched (c0 waitLong) = true) ∧ ((c0
    waitLong).early = []) ∧ ((c0 waitLong).heldAt.getD (c0 waitLong).dispAt + 12288000 + unwatched waitLong (c0 waitLong) ≤
    waitLong.ecyc)) ∧
  ((wedged.mapsOk = true) ∧ (wedged.mp.table.on = true) ∧ (wedged.mp.table.from_ + 12288000 + wedged.mp.table.off +
    lowFor wedged wedged.mp.table.from_ ≤ wedged.ecyc)) ∧
  ((wedged.dir.upd = some upd0) ∧ ((stepPlan wedged upd0).2 + 12288000 ≤ wedged.ecyc) ∧
    (stepBlocked wedged (stepPlan wedged upd0).1 = false)) ∧
  ((wedged.quads[0].jug.stepFrom = some 900000) ∧ (wedged.quads[0].jug.run = false) ∧ (900000 + 12288000 ≤ wedged.ecyc)) ∧
  ((wedged.quads[1].jug.stepFrom = none) ∧ (wedged.quads[1].syn.calFrom = some 900000) ∧
    (wedged.car.slots.all (fun x => x.waits != .calEnd) = true) ∧ (wedged.quads[1].jug.calWas = some 7)) := by
  refine ⟨?_, ?_, ?_, ?_, ?_, ?_, ?_, ?_, ?_⟩ <;> (first | decide +kernel | (simp only [Due]; decide +kernel))

theorem witness_RepliesAreQueuedOnce :
  ((findSlot finished 0 = some (c0 finished)) ∧ ((c0 finished).phase = Phase.completed) ∧ ((c0 finished).doneAt <
    finished.ecyc)) ∧
  ((findSlot finished 0 = some (c0 finished)) ∧ ((c0 finished).phase = Phase.completed) ∧ ((c0 finished).doneAt <
    finished.ecyc) ∧ ((c0 finished).early = []) ∧ (hdrSnap (c0 finished).hdr = false) ∧ (finished.car.notices = [])) := by
  refine ⟨?_, ?_⟩ <;> decide +kernel

theorem witness_FramesEnterOrAreTurnedAway :
  ((nextEntering (entering false).car.entering = some (enteringOne false)) ∧ ((enteringOne false).commitAt + 6 ≤
    (entering false).ecyc)) ∧
  ((nextEntering (entering true).car.entering = some (enteringOne true)) ∧ ((enteringOne true).commitAt + 6 ≤
    (entering true).ecyc)) ∧
  ((turnedAway.car.turned = [turnedOne]) ∧ (turnedOne.entryAt + 2 ≤ turnedAway.ecyc) ∧ (0 < placesFree turnedAway
    turnedOne.port)) := by
  refine ⟨?_, ?_, ?_⟩ <;> decide +kernel

theorem witness_RegisterCommandsReadAndWrite :
  (Starts (Instr.regRead 0) (cmd idle 16 [131073]) (mkSlot 16 [131073])) ∧
  (Starts (Instr.regWrite 0) (cmd idle 17 [73736, 5]) (mkSlot 17 [73736, 5])) ∧
  (Starts (Instr.regModify 0) (cmd idle 18 [8200, 1, 1]) (mkSlot 18 [8200, 1, 1])) ∧
  (Due (owing idle 17 [73736, 5] 999990 Effect.regWrite) 0 (c0 (owing idle 17 [73736, 5] 999990 Effect.regWrite))
    999990 Effect.regWrite []) ∧
  (Due (owing idle 18 [8200, 1, 1] 999990 Effect.regModify) 0 (c0 (owing idle 18 [8200, 1, 1] 999990 Effect.regModify))
    999990 Effect.regModify []) := by
  refine ⟨?_, ?_, ?_, ?_, ?_⟩ <;> (first | decide +kernel | (simp only [Starts, hostRow, Due]; decide +kernel))

theorem witness_RegisterWritesFollowTheFieldMap :
  ((idle.tb.run = true) ∧ (8192 ≤ 8192) ∧ (beyond (8192) (8192) = false)) ∧
  ((unleasedAt idle 0 0x0410 1).isSome = true) ∧
  ((ceilingAt (writeBlock 0 0x0420 0x0420 [127] atBarkerCeiling) atBarkerCeiling.variant 0x0420 1).isSome = false) ∧
  ((ceilingAt (writeBlock 0 0x0420 0x0420 [127] ceilinged) ceilinged.variant 0x0420 1).isSome = true) ∧
  ((leasedDev.tb.run = true) ∧ (leasedDev.mapsOk = true) ∧ (holdsReg leasedDev 0x0410 = true) ∧
    (beyond 0x0410 0x0410 = false) ∧ (unleasedAt leasedDev 0 0x0410 1 = none) ∧
    (ceilingAt (writeBlock 0 0x0410 0x0410 [1] leasedDev) leasedDev.variant 0x0410 1 = none) ∧
    (leasedDev.view 0x0410 = leasedDev.reg 0x0410) ∧ (hasUse 0x0410 = true) ∧ (deferred leasedDev 0x0410 = false)) ∧
  ((deferred (airWith (exch0 .hunt .bit)) 0x0410 = true) ∧ (holdsReg (airWith (exch0 .hunt .bit)) 0x0410 = true) ∧
    (unleasedAt (airWith (exch0 .hunt .bit)) 0 0x0410 1 = none)) ∧
  ((placesOnly 0x1000 = true) ∧ (holdsReg idle 0x1000 = true) ∧ (beyond 0x1000 0x1000 = false) ∧ (unleasedAt idle 0 0x1000 1 = none)) := by
  refine ⟨?_, ?_, ?_, ?_, ?_, ?_, ?_⟩ <;> decide +kernel

theorem witness_MaskedWritesTouchMaskedBitsOnly :
  ((idle.mapsOk = true) ∧ (idle.view 0x0410 = idle.reg 0x0410) ∧ (hasUse 0x0410 = true) ∧ (deferred idle 0x0410 = false)) ∧
  (((airWith (exch0 .hunt .bit)).mapsOk = true) ∧ (deferred (airWith (exch0 .hunt .bit)) 0x0410 = true)) ∧
  (placesOnly 0x1000 = true) := by
  refine ⟨?_, ?_, ?_⟩ <;> decide +kernel

theorem witness_CountersClearAndSaturate :
  ((atCounterCleared.tb.run = true) ∧ (atCounterCleared.mapsOk = true) ∧ (isRcl atCounterCleared (258) = true)) ∧
  ((idle.mapsOk = true) ∧ (Option.any (fun x => x.rcl) (regDef 258) = true) ∧ idle.reg 258 ≠ 4294967295) ∧
  ((cntFull.mapsOk = true) ∧ (Option.any (fun x => x.rcl) (regDef 258) = true) ∧ (cntFull.reg 258 = 4294967295) ∧
    ¬258 ∈ cntFull.past) ∧
  ((cntOver.mapsOk = true) ∧ (Option.any (fun x => x.rcl) (regDef 258) = true) ∧ (cntOver.reg 258 = 4294967295) ∧
    258 ∈ cntOver.past) := by
  refine ⟨?_, ?_, ?_, ?_⟩ <;> decide +kernel

theorem witness_GeometryAndDetectorRegisters :
  ((atGeomApplies.tb.run = true) ∧ (atGeomApplies.mapsOk = true) ∧ (Config.hasBearing atGeomApplies.variant = true)) ∧
  ((onAir.mapsOk = true) ∧ (radiates onAir 0 = true) ∧ (onAir.quads[quadOf 0].token = Token.control) ∧ (bitAt
    (onAir.reg (aQuad (quadOf 0) 5)) 17 = false) ∧ (onAir.ports[0].detAt ≤ onAir.ecyc) ∧ (levelReads onAir 0 = true)) ∧
  ((atLevelLow.mapsOk = true) ∧ (radiates atLevelLow 0 = true) ∧ (atLevelLow.quads[quadOf 0].token = Token.control) ∧
    (bitAt (atLevelLow.reg (aQuad (quadOf 0) 5)) 17 = false) ∧ (atLevelLow.ports[0].detAt ≤ atLevelLow.ecyc) ∧
    (levelReads atLevelLow 0 = false)) := by
  refine ⟨?_, ?_, ?_⟩ <;> decide +kernel

theorem witness_OutputAndDelayTasksAct :
    (idle.tb.run = true) ∧ (idle.mapsOk = true) ∧ ((mwFresh idle).mw.acted = []) ∧ ((mwFresh idle).mw.regActed = []) ∧
      (idle.mw.outAt ≤ idle.ecyc) := by
  decide +kernel

theorem witness_MidwayEventsFire :
  ((atEventMarks.mapsOk = true) ∧ (bitAt (atEventMarks.reg (4096 + ↑0)) 24 = true) ∧ (groupEnabled (mwFresh
    atEventMarks) (↑0 / 8) = true) ∧ fld (atEventMarks.reg (4096 + ↑0)) 3 0 &&& srcMask (↑0) (MwEvent.bark 0) ≠ 0 ∧
    ¬↑0 ∈ (mwFresh atEventMarks).mw.fired) ∧
  ((mfind atOutputFires1.mw.ended ↑2 = none) ∧ (mfind atOutputFires1.mw.delays ↑2 = some 999000) ∧
    (999000 ≤ atOutputFires1.ecyc)) ∧
  ((mfind atDelayRestarted.mw.ended ↑2 = some 999000)) ∧
  (((atOutputFires2.cntSat.any fun e => decide (e < atOutputFires2.ecyc)) = true)) ∧
  ((idle.tb.run = true) ∧ (sampled idle 1 ≠ true) ∧ (sampledAt idle 1 = none)) ∧
  ((inHigh.tb.run = true) ∧ (sampled inHigh 1 ≠ false) ∧ (sampledAt inHigh 1 = some 999990) ∧ (999990 + 2 ≤ inHigh.ecyc)) ∧
  ((inDue.tb.run = true) ∧ (inDue.mapsOk = true) ∧ (inDue.pending = []) ∧ (inDue.mw.ins = [(1, true, 999998)]) ∧
    (inDue.ecyc = 999998 + 2)) ∧
  ((atOutputFires4.mw.clocked = [(↑3, 1, 999990)]) ∧ (999990 < atOutputFires4.ecyc)) := by
  refine ⟨?_, ?_, ?_, ?_, ?_, ?_, ?_, ?_⟩ <;> decide +kernel

theorem witness_CrcUnitsCompute :
  ((atCrcStarts.tb.run = true) ∧ (atCrcStarts.mapsOk = true)) ∧
  ((idle.tb.run = true) ∧ (idle.mapsOk = true) ∧ [5, 6] ≠ []) ∧
  ((idle.tb.run = true) ∧ (idle.mapsOk = true) ∧ (bitAt (idle.inUse (aCu (4 + ↑2) 3)) 29 = false)) := by
  refine ⟨?_, ?_, ?_⟩ <;> decide +kernel

theorem witness_LinkPinsFollowTheirRules :
  ((idle.hosts[0].ready = true) ∧ (idle.hosts[0].sel = false)) ∧
  ((atPinWord.hosts[0].sel = true) ∧ (atPinWord.hosts[0].ready = true) ∧ (atPinWord.hosts[0].ann = none)) ∧
  (((linkIn .drain).hosts[0].sel = true) ∧ ((linkIn .drain).hosts[0].ready = true) ∧
    ((linkIn .drain).hosts[0].ann = some { kind := .drain, units := [fullUnit] }) ∧ [fullUnit] ≠ [] ∧ (1 ≤ 256) ∧ (256 ≤ 256)) ∧
  ((atPinIrq.hosts[0].irqDue = [(999996, true)]) ∧ (999996 + 4 ≤ atPinIrq.ecyc)) := by
  refine ⟨?_, ?_, ?_, ?_⟩ <;> decide +kernel

theorem witness_DrainAndReplayLoseNoUnit :
  (((linkIn LinkKind.drain).hosts[0].sel = true) ∧ ((linkIn LinkKind.drain).hosts[0].ann = some
    { kind := LinkKind.drain, units := [fullUnit] }) ∧ ([fullUnit] = List.take 1 (linkIn
    LinkKind.drain).hosts[0].queue) ∧ ((linkIn LinkKind.drain).hosts[0].aside = [])) ∧
  (((linkIn LinkKind.replay).mapsOk = true) ∧ ((linkIn LinkKind.replay).hosts[0].sel = true) ∧ ((linkIn
    LinkKind.replay).hosts[0].ann = some { kind := LinkKind.replay, units := [fullUnit] }) ∧ ((linkIn
    LinkKind.replay).hosts[0].aside = [])) := by
  refine ⟨?_, ?_⟩ <;> decide +kernel

theorem witness_CommandFramesAreJudged :
  (((frameIn none).hosts[0].sel = true) ∧ ((frameIn none).hosts[0].ann = some
    { kind := LinkKind.frame, units := [] })) ∧
  (((frameIn (some 0)).hosts[0].sel = true) ∧ ((frameIn (some 0)).hosts[0].ann = some
    { kind := LinkKind.frame, units := [] })) ∧
  ((64 = hdrLen (nopFrame.headD 0)) ∧ (crc32 ((wordsBits nopFrame).take 64) = 0) ∧
    ((frameIn none).hosts[0].aliveLast ≠ some (hdrAlive (nopFrame.headD 0))) ∧
    ((frameIn (some 0)).hosts[0].aliveLast = some (hdrAlive (nopFrame.headD 0)))) ∧
  ((dupDue.hosts[0].dupOf = some lastDone) ∧ (lastDone.done = true)) := by
  refine ⟨?_, ?_, ?_, ?_⟩ <;> decide +kernel

/-- A committed frame of one NOP is answered with a frame that enters. -/
theorem test_frame_commits : (after (exec (.commandFrame 0 64 nopFrame) (frameIn none))).car.entering.length = 1 := by
  decide +kernel

theorem witness_TheMemoryBusIsAskedForAndGranted :
  ((Instr.mpXfer 0 = Instr.mpXfer 0 ∧ BusReq.xfer 0 = BusReq.xfer 0 ∨ Instr.mpXfer 0 = Instr.mpMap 0 ∧ BusReq.xfer
    0 = BusReq.map 0) ∧ Starts (Instr.mpXfer 0) (cmd idle 128 [32, 0]) (mkSlot 128 [32, 0])) ∧
  ((Instr.mpMap 0 = Instr.mpXfer 0 ∧ BusReq.map 0 = BusReq.xfer 0 ∨ Instr.mpMap 0 = Instr.mpMap 0 ∧ BusReq.map 0 =
    BusReq.map 0) ∧ Starts (Instr.mpMap 0) (cmd idle 129 [0, 0]) (mkSlot 129 [0, 0])) ∧
  ((askingBus.mp.owner = none) ∧ (askingBus.mp.waiting = [(BusReq.exit false, 990000)]) ∧ (needsExit askingBus
    (BusReq.exit false) = false) ∧ (max 990000 askingBus.mp.freeAt ≤ askingBus.ecyc)) ∧
  ((xferOwns.mp.owner.isSome = true)) ∧
  (LastDue (memOwing 0x80 0x20 .mpDone) 999990 .mpDone ∧ (memOwing 0x80 0x20 .mpDone).mp.waiting = []) ∧
  (LastDue (memOwing 0x81 0 .mpMap) 999990 .mpMap ∧ (memOwing 0x81 0 .mpMap).mp.waiting = []) := by
  refine ⟨?_, ?_, ?_, ?_, ?_, ?_⟩ <;> (first | decide +kernel | (simp only [Starts, hostRow, LastDue, Due]; decide +kernel))

theorem witness_TransfersAndFillsFreeTheBus :
  ((xferOwns.mapsOk = true) ∧ (xferOwns.mp.owner = some (BusReq.xfer 0)) ∧ (busEnd xferOwns (BusReq.xfer 0) ≤
    xferOwns.ecyc) ∧ (findSlot xferOwns 0 = some (c0 xferOwns)) ∧ ((c0 xferOwns).phase = Phase.executing)) ∧
  (((busWith idle (BusReq.exit false)).mapsOk = true) ∧ ((busWith idle (BusReq.exit false)).mp.owner = some
    (BusReq.exit false)) ∧ (busEnd (busWith idle (BusReq.exit false)) (BusReq.exit false) ≤ (busWith idle
    (BusReq.exit false)).ecyc)) ∧
  (((busWith idle (BusReq.demand 128)).mapsOk = true) ∧ ((List.replicate 64 1).length = 64) ∧ ((busWith idle
    (BusReq.demand 128)).mp.lines.length ≤ 4) ∧ ((busWith idle (BusReq.demand 128)).mp.owner = some (BusReq.demand
    128) ∨ (busWith idle (BusReq.demand 128)).mp.owner = some (BusReq.spec 128)) ∧ (busEnd (busWith idle
    (BusReq.demand 128)) (BusReq.demand 128) ≤ (busWith idle (BusReq.demand 128)).ecyc) ∧ (∀ g ∈ [Engine.boot, .table, .patch],
    (engineOf (busWith idle (.demand 128)) g).from_ ≤ busEnd (busWith idle (.demand 128)) (.demand 128)) ∧
    (busWith idle (.demand 128)).mp.lines = []) ∧
  ((stretchable { mreadyUse with ecyc := 990144 } = true) ∧ (mreadyUse.mp.low = none) ∧
    (byteBoundary { mreadyUse with ecyc := 990144 } 990144 = true)) ∧
  (((mreadyLow 1000000).mp.low = some 990144) ∧ (990144 < (mreadyLow 1000000).ecyc) ∧
    ((mreadyLow 1000000).ecyc < 990144 + 24576) ∧ (stretchable (mreadyLow 1000000) = true) ∧
    (byteBoundary (mreadyLow 1000000) 990144 = true)) ∧
  (((mreadyLow 1014720).mp.low = some 990144) ∧ (990144 + 24576 ≤ (mreadyLow 1014720).ecyc) ∧ ((mreadyLow 1014720).mapsOk = true)) := by
  refine ⟨?_, ?_, ?_, ?_, ?_, ?_⟩ <;> decide +kernel

theorem witness_EnginesReadAndBanksSwap :
  ((Engine.patch = Engine.patch ∨ Engine.patch = Engine.boot ∧ (withHit patchOn).boot.stage = Stage.patch) ∧
    ((engineOf (withHit patchOn) Engine.patch).hits = [hit0]) ∧ (hit0.at_ + 6 ≤ (withHit patchOn).ecyc)) ∧
  ((Engine.patch ≠ .table) ∧ (xipOn lineHeld = true) ∧ (engineFull .patch (engineOf lineHeld .patch) = false) ∧
    (heldLine lineHeld (engineOf lineHeld .patch).addr = some (lineWith (List.replicate 64 0)))) ∧
  (((withHit tableOn).mp.table.hits = [hit0]) ∧ (hit0.at_ + 6 ≤ (withHit tableOn).ecyc) ∧
    (((withHit tableOn).mp.table.bytes ++ hit0.data).length < (withHit tableOn).mp.table.want) ∧
    ((withHit tableOn).mp.table.addr + 4 ≤ 2 ^ 24)) ∧
  ((xipOn { idle with regs := [(0x1803, 1)] } = true) ∧ (heldLine { idle with regs := [(0x1803, 1)] } 0 = none)) ∧
  ((tableNamed.boot.tableOff = some 64) ∧ (tableNamed.boot.stage = Stage.ready) ∧ (tableNamed.boot.dueAt + 1 ≤
    tableNamed.ecyc)) ∧
  (Starts (Instr.patchLoad 0) (cmd idle 160 [0]) (mkSlot 160 [0])) ∧
  (Starts (Instr.patchSwap 0) (cmd patched 161 []) (mkSlot 161 [])) ∧
  ((swapWaits.car.slots = [c0 swapWaits]) ∧ ((c0 swapWaits).stamp = 0) ∧ ((c0 swapWaits).phase = Phase.executing) ∧
    ((c0 swapWaits).waits = Await.rounds) ∧ ((c0 swapWaits).heldAt = none) ∧ (inAnyRound swapWaits = false)) ∧
  (LastDue (owing patched 0xA1 [] 999990 .swap) 999990 .swap) ∧
  (LastDue (patchRead (List.replicate 12 0)) 999990 .patchDone ∧ imageOf (List.replicate 12 0) = none) := by
  refine ⟨?_, ?_, ?_, ?_, ?_, ?_, ?_, ?_, ?_, ?_⟩ <;> (first | decide +kernel | (simp only [Starts, hostRow, LastDue, Due]; decide +kernel))

theorem witness_JournalSettingsTakeEffect :
  (Starts (Instr.journalRead 0) (cmd idle 144 [256]) (mkSlot 144 [256]) ∧ (jnlCount (mkSlot 144 [256]) ≤ 62)) ∧
  ((Instr.regionSet 0 = Instr.regionSet 0 ∧ 1 = 1 ∨ Instr.regionSet 0 = Instr.ceilingSet 0 ∧ 1 = 2 ∨
    Instr.regionSet 0 = Instr.roleSet 0 ∧ 1 = 3) ∧ Starts (Instr.regionSet 0) (cmd idle 145 [262144000]) (mkSlot 145
    [262144000]) ∧ (pw (mkSlot 145 [262144000]) 0 = settingNow (cmd idle 145 [262144000]) 1)) ∧
  ((Instr.regionSet 0 = Instr.regionSet 0 ∧ 1 = 1 ∨ Instr.regionSet 0 = Instr.ceilingSet 0 ∧ 1 = 2 ∨
    Instr.regionSet 0 = Instr.roleSet 0 ∧ 1 = 3) ∧ Starts (Instr.regionSet 0) (cmd journalFull 145 [262144001])
    (mkSlot 145 [262144001]) ∧ pw (mkSlot 145 [262144001]) 0 ≠ settingNow (cmd journalFull 145 [262144001]) 1 ∧
    (leftOf (cmd journalFull 145 [262144001]) 1 = 0 ∨ 64 ≤ nextRow (cmd journalFull 145 [262144001]))) ∧
  ((Instr.regionSet 0 = Instr.regionSet 0 ∧ 1 = 1 ∨ Instr.regionSet 0 = Instr.ceilingSet 0 ∧ 1 = 2 ∨
    Instr.regionSet 0 = Instr.roleSet 0 ∧ 1 = 3) ∧ Starts (Instr.regionSet 0) (cmd idle 145 [262144001]) (mkSlot 145
    [262144001]) ∧ pw (mkSlot 145 [262144001]) 0 ≠ settingNow (cmd idle 145 [262144001]) 1 ∧ (0 < leftOf (cmd idle
    145 [262144001]) 1) ∧ (nextRow (cmd idle 145 [262144001]) < 64)) ∧
  ((Instr.ceilingSet 0 = Instr.regionSet 0 ∧ 2 = 1 ∨ Instr.ceilingSet 0 = Instr.ceilingSet 0 ∧ 2 = 2 ∨
    Instr.ceilingSet 0 = Instr.roleSet 0 ∧ 2 = 3) ∧ Starts (Instr.ceilingSet 0) (cmd idle 146 [1]) (mkSlot 146 [1])
    ∧ pw (mkSlot 146 [1]) 0 ≠ settingNow (cmd idle 146 [1]) 2 ∧ (0 < leftOf (cmd idle 146 [1]) 2) ∧ (nextRow (cmd
    idle 146 [1]) < 64)) ∧
  ((Instr.roleSet 0 = Instr.regionSet 0 ∧ 3 = 1 ∨ Instr.roleSet 0 = Instr.ceilingSet 0 ∧ 3 = 2 ∨ Instr.roleSet 0 =
    Instr.roleSet 0 ∧ 3 = 3) ∧ Starts (Instr.roleSet 0) (cmd idle 147 [1]) (mkSlot 147 [1]) ∧ pw (mkSlot 147 [1]) 0
    ≠ settingNow (cmd idle 147 [1]) 3 ∧ (0 < leftOf (cmd idle 147 [1]) 3) ∧ (nextRow (cmd idle 147 [1]) < 64)) ∧
  (((rowDone 1 262144001).mapsOk = true) ∧ ((rowDone 1 262144001).boot.prog = some (progOf 1 262144001)) ∧ ((progOf
    1 262144001).beginAt + 245760 ≤ (rowDone 1 262144001).ecyc)) ∧
  (((rowDone 2 1).mapsOk = true) ∧ ((rowDone 2 1).boot.prog = some (progOf 2 1)) ∧ ((progOf 2 1).beginAt + 245760 ≤
    (rowDone 2 1).ecyc)) ∧
  (((rowDone 3 2).mapsOk = true) ∧ ((rowDone 3 2).boot.prog = some (progOf 3 2)) ∧ ((progOf 3 2).beginAt + 245760 ≤
    (rowDone 3 2).ecyc)) ∧
  ((rowWaited.mapsOk = true) ∧ (rowWaited.boot.prog = some (progOf 1 0x0FA00001)) ∧ (rowWaited.car.slots = [c0 rowWaited]) ∧
    ((c0 rowWaited).stamp = (progOf 1 0x0FA00001).stamp) ∧ ((c0 rowWaited).phase = .executing) ∧
    ((c0 rowWaited).waits = .row) ∧ ((c0 rowWaited).effs = []) ∧ ((c0 rowWaited).units = [.journal])) := by
  refine ⟨?_, ?_, ?_, ?_, ?_, ?_, ?_, ?_, ?_, ?_⟩ <;> (first | decide +kernel | (simp only [Starts, hostRow]; decide +kernel))

theorem witness_FullResetLeavesOnlyTheFuses :
  (Starts (Instr.resetDevice 0) (cmd idle 6 [~~~mkHdr 6 1]) (mkSlot 6 [~~~mkHdr 6 1])) ∧
  ((99 < 100)) ∧
  (inFullReset onAir = false ∧ 1000 ≤ (1000 : Nat) ∧ 739 < tripLevel onAir.supply .core) ∧
  (tripLevel onAir.supply .core ≤ 800 ∧ tripLevel onAir.supply .an ≤ 1800) ∧
  (({ onAir.supply with range := none, io := { mv := 0, up := false } } : SupplySt).range = none ∧
    ({ onAir.supply with range := none, io := { mv := 0, up := false } } : SupplySt).io.mv < 3300) ∧
  (onAir.supply.range = some .v1800 ∧ 1599 < ioTrip .v1800 ∧ ioTrip .v1800 ≤ 1800) ∧
  (Due (owing idle 6 [~~~mkHdr 6 1] 999990 .fullReset) 0 (c0 (owing idle 6 [~~~mkHdr 6 1] 999990 .fullReset))
    999990 .fullReset [] ∧ inFullReset (owing idle 6 [~~~mkHdr 6 1] 999990 .fullReset) = false) := by
  refine ⟨?_, ?_, ?_, ?_, ?_, ?_, ?_⟩ <;> (first | decide +kernel | (simp only [Starts, hostRow, Due]; decide +kernel))

theorem witness_TheBootBeginsInOrder :
  (((booting Stage.held).boot.stage = Stage.held) ∧ (released (booting Stage.held).supply = true)) ∧
  (released (supplyTo (booting Stage.held).supply .drv 2000) = false) ∧
  (((booting Stage.released).boot.stage = Stage.released)) ∧
  (((booting Stage.fuses).boot.stage = Stage.fuses) ∧ (4096 ≤ (booting Stage.fuses).ecyc)) ∧
  (((booting Stage.scrub).boot.stage = Stage.scrub) ∧ (135168 ≤ (booting Stage.scrub).ecyc)) := by
  refine ⟨?_, ?_, ?_, ?_, ?_⟩ <;> decide +kernel

theorem witness_TheBootEndsWithReady :
  (((headerHeld (List.replicate 64 0)).mapsOk = true) ∧ (heldLine (headerHeld (List.replicate 64 0)) 0 = some
    (lineWith (List.replicate 64 0))) ∧ ((headerHeld (List.replicate 64 0)).boot.stage = Stage.header) ∧ ((lineWith
    (List.replicate 64 0)).validAt + 64 ≤ (headerHeld (List.replicate 64 0)).ecyc)) ∧
  ((bootRead.mapsOk = true) ∧ (bootRead.boot.stage = Stage.patch) ∧ (loaderDone bootRead.mp.boot = true) ∧
    (bootRead.boot.dueAt ≤ bootRead.ecyc)) ∧
  (((booting Stage.last).mapsOk = true) ∧ ((booting Stage.last).boot.stage = Stage.last) ∧ ((booting
    Stage.last).boot.dueAt ≤ (booting Stage.last).ecyc)) := by
  refine ⟨?_, ?_, ?_⟩ <;> decide +kernel

theorem witness_RadioCommandsOweTheirEffects :
  (Starts (Instr.powerSet 0) (cmd leasedDev 36 [1114113]) (mkSlot 36 [1114113])) ∧
  (Starts (Instr.beamLoad 0) (cmd idle 38 (List.replicate 17 1)) (mkSlot 38 (List.replicate 17 1))) ∧
  (Starts (Instr.beamSelect 0) (cmd leasedDev 39 [1]) (mkSlot 39 [1])) ∧
  (Starts (Instr.barkerArm 0) (cmd leasedDev 40 [1]) (mkSlot 40 [1])) ∧
  (Starts (Instr.synthCal 0) (cmd leasedDev 33 [0]) (mkSlot 33 [0])) ∧
  (Starts (Instr.synthSet 0) (cmd onAir 32 [38000000]) (mkSlot 32 [38000000]) ∧ (cmd onAir 32 [38000000]).mapsOk = true) ∧
  (Starts (Instr.synthSet 0) (cmd leasedDev 32 [38000000]) (mkSlot 32 [38000000]) ∧
    (cmd leasedDev 32 [38000000]).mapsOk = true) ∧
  ((leasedDev.mapsOk = true) ∧ (bitAt (pw (mkSlot 36 [1114113]) 0) 31 = false)) ∧
  ((idle.mapsOk = true)) ∧
  (Starts (Instr.ringMode 0) (cmd ownAll 41 [1]) (mkSlot 41 [1])) := by
  refine ⟨?_, ?_, ?_, ?_, ?_, ?_, ?_, ?_, ?_, ?_⟩ <;> (first | decide +kernel | (simp only [Starts, hostRow]; decide +kernel))

/-- What the radio commands owe falls due. -/
theorem witness_RadioEffectsAreDue :
  (LastDue (owing onAir 0x24 [0x00110001] 999990 .check) 999990 .check ∧ bitAt (0x00110001 : Word) 31 = false ∧
    ∀ q : Quad, admits (powerWrite (metBy (owing onAir 0x24 [0x00110001] 999990 .check) 999990)
        (mkSlot 0x24 [0x00110001])) q = true ∧
      (((owing onAir 0x24 [0x00110001] 999990 .check).quads[q].job.map (·.beams)).getD []).all (admitsBeam (powerWrite
        (metBy (owing onAir 0x24 [0x00110001] 999990 .check) 999990) (mkSlot 0x24 [0x00110001])) q) = true) ∧
  (LastDue (owing onAir 0x24 [0x80000005] 999990 .check) 999990 .check ∧ bitAt (0x80000005 : Word) 31 = true) ∧
  (LastDue (owing idle 0x26 (3 :: List.replicate 16 1) 999990 .beamWrite) 999990 .beamWrite ∧
    beamOn (owing idle 0x26 (3 :: List.replicate 16 1) 999990 .beamWrite) 3 = []) ∧
  (LastDue (owing leasedDev 0x27 [3] 999990 .check) 999990 .check ∧
    admitsBeam (metBy (owing leasedDev 0x27 [3] 999990 .check) 999990) 0 3 = true) ∧
  (LastDue (owing leasedDev 0x28 [1] 999990 .barkerArm) 999990 .barkerArm ∧
    (fld leasedDev.boot.ceiling 19 10 : Int) - 40 ≤ (fld leasedDev.boot.ceiling 9 0 : Int) ∧ leasedDev.bark.armed = 0) ∧
  (LastDue (owing armed 0x28 [2] 999990 .barkerArm) 999990 .barkerArm ∧ armed.bark.armed ≠ 0 ∧ fld (2 : Word) 15 0 ≠ 0) ∧
  (LastDue (owing ownAll 0x29 [1] 999990 (.ring true)) 999990 (.ring true)) ∧
  (LastDue (owing ringDev 0x29 [0] 999990 (.ring false)) 999990 (.ring false)) ∧
  (LastDue (owing leasedDev 0x20 [38000000] 999990 (.freqApply 0 true)) 999990 (.freqApply 0 true) ∧
    leasedDev.quads[0].syn.calFrom = none) ∧
  (LastDue (owing leasedDev 0x21 [0] 999990 (.calStart 0)) 999990 (.calStart 0)) ∧
  ((lockWaited leasedDev 0x20).mapsOk = true ∧ (lockWaited leasedDev 0x20).quads[0].syn.lockFrom = some 900000 ∧
    (lockWaited leasedDev 0x20).quads[0].syn.powered = true ∧ 900000 + 1600 ≤ (lockWaited leasedDev 0x20).ecyc ∧
    (lockWaited leasedDev 0x20).quads[0].jug.calWas = none ∧
    findSlot (lockWaited leasedDev 0x20) 0 = some (c0 (lockWaited leasedDev 0x20)) ∧
    lockWaiters (lockWaited leasedDev 0x20) 0 = [c0 (lockWaited leasedDev 0x20)] ∧
    (lockWaited leasedDev 0x20).car.slots.all (fun x => x.waits != .relock) = true ∧
    fieldIsOn (lockWaited leasedDev 0x20) 0 = false) ∧
  (lockWaiters (lockWaited onAir 0x20) 0 = [c0 (lockWaited onAir 0x20)] ∧ fieldIsOn (lockWaited onAir 0x20) 0 = true) ∧
  (lockWaiters (lockWaited leasedDev 0x21) 0 = [c0 (lockWaited leasedDev 0x21)] ∧
    hdrOpc (c0 (lockWaited leasedDev 0x21)).hdr = 0x21) := by
  refine ⟨?_, ?_, ?_, ?_, ?_, ?_, ?_, ?_, ?_, ?_, ?_, ?_, ?_⟩ <;>
    (first | decide +kernel | (simp only [LastDue, Due]; decide +kernel))

theorem witness_FieldOnTurnsTheFieldOn :
  (Starts (Instr.fieldOn 0) (cmd leasedDev 34 [1]) (mkSlot 34 [1])) ∧
  ((fieldCmd.mapsOk = true) ∧ (findSlot fieldCmd 0 = some (c0 fieldCmd))) := by
  refine ⟨?_, ?_⟩ <;> (first | decide +kernel | (simp only [Starts, hostRow]; decide +kernel))

theorem witness_FieldsRampDownAndGoOff :
  (((cmd onAir 35 [3]).mapsOk = true) ∧ Starts (Instr.fieldOff 0) (cmd onAir 35 [3]) (mkSlot 35 [3])) ∧
  (((cmd leasedDev 35 [3]).mapsOk = true) ∧ Starts (Instr.fieldOff 0) (cmd leasedDev 35 [3]) (mkSlot 35 [3])) ∧
  (((1 : BitVec 4).getLsbD 0 = true) ∧ (fieldIsOn onAir (lead onAir 0) = true)) ∧
  (((2 : BitVec 4).getLsbD 1 = true) ∧ (ringDev.ring = true) ∧ (fieldIsOn ringDev (lead ringDev 1) = true)) ∧
  ((rampDue.quads[lead rampDue 0].rampAt = some 999999) ∧ (999999 ≤ rampDue.ecyc)) ∧
  ((ringRamp.ring = true) ∧ (ringRamp.quads[lead ringRamp 2].rampAt = some 999999)) := by
  refine ⟨?_, ?_, ?_, ?_, ?_, ?_⟩ <;> (first | decide +kernel | (simp only [Starts, hostRow]; decide +kernel))

theorem witness_TheTunerSearchesAndKeepsTheBest :
  (Starts (Instr.tunePort 0 []) (cmd onAir 37 [0]) (mkSlot 37 [0]) ∧ (0 = fld (pw (mkSlot 37 [0]) 0) 3 0)) ∧
  (Starts (Instr.tunePort 0 []) (cmd leasedDev 37 [0]) (mkSlot 37 [0]) ∧ (0 = fld (pw (mkSlot 37 [0]) 0) 3 0)) ∧
  (((List.map (fun i => ({ rl := i * 37 % 61, phase := 0 } : TuneMeas)) (List.range 61)).length = 61) ∧ (24 < 61) ∧
    (61 ≤ 61) ∧ (24 ≤ 24)) := by
  refine ⟨?_, ?_, ?_⟩ <;> (first | decide +kernel | (simp only [Starts, hostRow]; decide +kernel))

theorem witness_CalibrationCommandsStart :
  (Starts (Instr.calRun 0 []) (cmd onAir 48 [1]) (mkSlot 48 [1])) ∧
  (Starts (Instr.calRun 0 []) (cmd onAir 48 [0]) (mkSlot 48 [0])) ∧
  (Starts (Instr.calLoadSet 0) (cmd leasedDev 49 [33554432, 0, 0]) (mkSlot 49 [33554432, 0, 0])) ∧
  (Starts (.calRead 0) (cmd leasedDev 0x32 [0x04000000]) (mkSlot 0x32 [0x04000000])) ∧
  (LastDue (owing leasedDev 0x31 [0x01000000, 0, 0] 999990 .calLoad) 999990 .calLoad) ∧
  (LastDue (owing leasedDev 0x31 [0x02000000, 5, 5] 999990 .calLoad) 999990 .calLoad ∧
    fieldIsOn (owing leasedDev 0x31 [0x02000000, 5, 5] 999990 .calLoad) (quadOf 0) = false) ∧
  (Due (calOwes 1 [(999990, .calTx 0 txMeas), (1012278, .none)]) 0 (c0 (calOwes 1 [(999990, .calTx 0 txMeas), (1012278, .none)]))
      999990 (.calTx 0 txMeas) [(1012278, .none)] ∧ (calOwes 1 [(999990, .calTx 0 txMeas), (1012278, .none)]).mapsOk = true ∧
    (calPorts calDev 0).filter (radiates calDev) = [0] ∧ txMeas.any (fun m => m.port == 0) = true) ∧
  (Due (calOwes 0 [(999990, .calBegin 0 [])]) 0 (c0 (calOwes 0 [(999990, .calBegin 0 [])])) 999990 (.calBegin 0 []) [] ∧
    (calOwes 0 [(999990, .calBegin 0 [])]).tb.run = true ∧ (calOwes 0 [(999990, .calBegin 0 [])]).quads[0].syn.calFrom = none ∧
    synReady (calOwes 0 [(999990, .calBegin 0 [])]) 0 = true) ∧
  (Due (calOwes 0 [(999990, .calStep 0 0 []), (1006134, .calStep 0 1 [])]) 0
    (c0 (calOwes 0 [(999990, .calStep 0 0 []), (1006134, .calStep 0 1 [])])) 999990 (.calStep 0 0 [])
    [(1006134, .calStep 0 1 [])]) ∧
  (LastDue (calOwes 0 [(999990, .calStep 0 3 [])]) 999990 (.calStep 0 3 []) ∧
    hdrOpc (c0 (calOwes 0 [(999990, .calStep 0 3 [])])).hdr = 0x30) := by
  refine ⟨?_, ?_, ?_, ?_, ?_, ?_, ?_, ?_, ?_, ?_⟩ <;>
    (first | decide +kernel | (simp only [Starts, hostRow, LastDue, Due]; decide +kernel))

theorem witness_TokensRefreshAndFieldsAreCut :
  ((atTokenRefreshed.quads[0].token = Token.control) ∧ (atTokenRefreshed.quads[0].refreshAt + 2048 ≤
    atTokenRefreshed.ecyc) ∧ (atTokenRefreshed.ecyc ≤ atTokenRefreshed.quads[0].refreshAt + 3932)) ∧
  ((stale.mapsOk = true) ∧ (stale.quads[0].token = Token.control) ∧ (stale.quads[0].refreshAt + 3932 < stale.ecyc)) ∧
  ((ringStale.mapsOk = true) ∧ (ringStale.ring = true) ∧ (ringStale.quads[1].token = Token.control) ∧
    (ringStale.quads[1].refreshAt + 3932 < ringStale.ecyc)) ∧
  ((onAir.mapsOk = true) ∧ (onAir.quads[lead onAir 0].token = Token.control) ∧ (fieldIsOn onAir (lead onAir 0) = true) ∧
    (bitAt (onAir.reg (aQuad (lead onAir 0) 1)) 0 = true)) ∧
  ((ringLocked.ring = true) ∧ (ringLocked.quads[lead ringLocked 1].token = Token.control) ∧
    (fieldIsOn ringLocked (lead ringLocked 1) = true) ∧ (bitAt (ringLocked.reg (aQuad (lead ringLocked 1) 1)) 0 = true)) ∧
  ((cutDue.mapsOk = true) ∧ (cutDue.quads[lead cutDue 0].cutFrom = some 999999) ∧ (999999 < cutDue.ecyc)) ∧
  ((ringCut.mapsOk = true) ∧ (ringCut.ring = true) ∧ (ringCut.quads[lead ringCut 3].cutFrom = some 999999) ∧
    (999999 < ringCut.ecyc)) ∧
  (({ cutDue with ecyc := 999999 } : State).ecyc ≤ 999999) := by
  refine ⟨?_, ?_, ?_, ?_, ?_, ?_, ?_, ?_⟩ <;> decide +kernel

theorem witness_SynthesisersCalibrateAndLock :
  ((locking.mapsOk = true) ∧ (locking.quads[0].syn.lockFrom = some 900000) ∧ (locking.quads[0].jug.calWas = none) ∧
    (locking.quads[0].syn.powered = true) ∧ (900000 + 1600 ≤ locking.ecyc)) ∧
  ((900000 + 29491 ≤ locking.ecyc) ∧ (locking.quads[0].syn.timedOut = false) ∧ (lockWaiters locking 0 = []) ∧
    (locking.quads[0].syn.juggler = false)) ∧
  (((lockWaited leasedDev 0x21).mapsOk = true) ∧ (lockWaiters (lockWaited leasedDev 0x21) 0 =
    [c0 (lockWaited leasedDev 0x21)]) ∧ (findSlot (lockWaited leasedDev 0x21) (c0 (lockWaited leasedDev 0x21)).stamp =
    some (c0 (lockWaited leasedDev 0x21))) ∧ ((lockWaited leasedDev 0x21).car.slots.all (fun x => x.waits != .relock) =
    true)) ∧
  ((calibrating.mapsOk = true) ∧ (calibrating.quads[0].syn.calFrom = some 900000) ∧ (calibrating.car.slots.all (fun x =>
    x.waits != .calEnd) = true)) ∧
  ((bandGap.mapsOk = true) ∧ (bandGap.isReady = true) ∧ (jugMay bandGap 0 = true) ∧ (bandTurn bandGap 0 = true)) := by
  refine ⟨?_, ?_, ?_, ?_, ?_⟩ <;> decide +kernel

theorem witness_TheJugglerConvertsAndSteps :
  ((tempTime.mapsOk = true) ∧ (tempTime.tb.run = true) ∧ (0 < tempTime.ecyc) ∧ (tempTime.ecyc % 245760 = 0)) ∧
  ((stepGap.mapsOk = true) ∧ (stepGap.isReady = true) ∧ (jugMay stepGap 0 = true) ∧ (bandTurn stepGap 0 = false) ∧
    (bitAt (stepGap.inUse 352) 1 = true) ∧ (rxWanted stepGap 0 = true) ∧ stepGap.quads[0].jug.gap ≠ 0 ∧ (gapNow
    stepGap 0 = stepGap.quads[0].jug.gap) ∧ (stepGap.quads[0].jug.gapAt + 16 ≤ stepGap.ecyc) ∧ (stepFits stepGap 0 =
    true) ∧ (synReady stepGap 0 = true)) ∧
  ((stepping.mapsOk = true) ∧ (stepping.quads[0].jug.stepFrom = some 990000) ∧ (990000 + 6144 ≤ stepping.ecyc) ∧
    (stepping.quads[0].jug.run = false) ∧ (stepping.quads[0].jug.steps < 3)) ∧
  ((lastStep.mapsOk = true) ∧ (lastStep.quads[0].jug.stepFrom = some 990000) ∧ (990000 + 6144 ≤ lastStep.ecyc) ∧
    (lastStep.quads[0].jug.run = false) ∧ (lastStep.quads[0].jug.steps = 3)) ∧
  ((seqOld.mapsOk = true) ∧ (0 < seqOld.quads[0].jug.steps) ∧ (seqOld.quads[0].jug.run = false) ∧
    (seqOld.quads[0].jug.seqAt + 245760000 ≤ seqOld.ecyc)) ∧
  ((retrying.mapsOk = true) ∧ retrying.quads[0].jug.retryAt ≠ 0 ∧ (retrying.quads[0].jug.retryAt ≤ retrying.ecyc)) := by
  refine ⟨?_, ?_, ?_, ?_, ?_, ?_⟩ <;> decide +kernel

theorem witness_BarkerSlotsRunAndCompare :
  ((armed.mapsOk = true) ∧ armed.bark.armed ≠ 0 ∧ (quadPresent armed 0 = true) ∧ (lead armed 0 = 0) ∧
    (armed.quads[0].syn.barker = false) ∧ (powerUpTime armed 0 = true)) ∧
  ((armed.mapsOk = true) ∧ (armed.bark.armed.getLsbD ↑0 = true) ∧ (slotAt armed 0 ≤ armed.ecyc) ∧ (armed.ecyc <
    slotAt armed 0 + 122880) ∧ armed.ports[0].slotNo ≠ slotAt armed 0 + 1) ∧
  ((atBarkerSkips.mapsOk = true) ∧ (atBarkerSkips.bark.armed.getLsbD ↑0 = true) ∧ (slotAt atBarkerSkips 0 ≤
    atBarkerSkips.ecyc) ∧ (atBarkerSkips.ecyc < slotAt atBarkerSkips 0 + 122880) ∧ atBarkerSkips.ports[0].slotNo ≠
    slotAt atBarkerSkips 0 + 1) ∧
  ((armed.mapsOk = true) ∧ (∀ r ∈ groupPorts armed (quadOf 0), armed.ports[r].burst = none) ∧ (slotSkips armed 0 = false)) ∧
  ((bursting.mapsOk = true) ∧ (bursting.ports[0].burst = some 990000) ∧ (990000 + 122880 ≤ bursting.ecyc)) ∧
  ((slotsOver.mapsOk = true) ∧ (quadPresent slotsOver 0 = true) ∧ (lead slotsOver 0 = 0) ∧
    (groupSlots slotsOver 0 = some (990000, slotAt slotsOver 1)) ∧ (slotAt slotsOver 1 + 122880 ≤ slotsOver.ecyc) ∧
    (powerUpTime slotsOver 0 = false)) ∧
  ((bursting.ports[0].burstCut = none) ∧ (bursting.mapsOk = true) ∧ (bursting.ports[0].burst = some 990000) ∧ (990000 + 122656 ≤ bursting.ecyc) ∧
    (bursting.ports[0].compared = false) ∧ (bursting.ports[0].base = none)) ∧
  (((based true).mapsOk = true) ∧ ((based true).ports[0].base = some base0) ∧ (bitAt ((based true).reg (aPort 0 0x2B)) 8 = true)) ∧
  (((based false).ports[0].base = some base0) ∧ (bitAt ((based false).reg (aPort 0 0x2B)) 8 = false) ∧
    (exceeds (gammaSub { re := 0, im := 0, exp := 30 } base0) (barkThr ((based false).inUse (aPort 0 0x2C))) = true)) ∧
  (exceeds (gammaSub { re := 536870913, im := 0, exp := 30 } base0) (barkThr ((based false).inUse (aPort 0 0x2C))) = false) := by
  refine ⟨?_, ?_, ?_, ?_, ?_, ?_, ?_, ?_, ?_, ?_⟩ <;> decide +kernel

theorem witness_SequencesStartTheirJobs :
  ((Instr.stRound 0 = Instr.stRound 0 ∧ false = false ∨ Instr.stRound 0 = Instr.gInventory 0 ∧ false = true) ∧
    Starts (Instr.stRound 0) (cmd onAir 64 [1, 100, 0]) (mkSlot 64 [1, 100, 0])) ∧
  ((Instr.gInventory 0 = Instr.stRound 0 ∧ true = false ∨ Instr.gInventory 0 = Instr.gInventory 0 ∧ true = true) ∧
    Starts (Instr.gInventory 0) (cmd onAir 80 [1, 256, 409600]) (mkSlot 80 [1, 256, 409600])) ∧
  (Starts (Instr.gInventory 0) (cmd onAir 80 [1, 256, 409600]) (mkSlot 80 [1, 256, 409600]) ∧ ((cmd onAir 80 [1,
    256, 409600]).ring = false)) := by
  refine ⟨?_, ?_, ?_⟩ <;> (first | decide +kernel | (simp only [Starts, hostRow]; decide +kernel))

theorem witness_AirCommandsStartTheirJob :
  ((Instr.stSelect 0, AirStep.wake, false, false) ∈ [(Instr.stSelect 0, AirStep.wake, false, false), (Instr.stRead
    0, AirStep.reselect 0, true, false), (Instr.stWrite 0, AirStep.reselect 0, true, false), (Instr.stHalt 0,
    AirStep.reselect 0, true, false), (Instr.stSense 0, AirStep.reselect 0, true, false), (Instr.stRaw 0,
    AirStep.raw, false, false), (Instr.gRead 0, AirStep.gSelect 0, false, true), (Instr.gWrite 0, AirStep.gSelect 0,
    false, true), (Instr.gLock 0, AirStep.gSelect 0, false, true), (Instr.gKill 0, AirStep.gSelect 0, false, true),
    (Instr.gRaw 0, AirStep.raw, false, true)] ∧ Starts (Instr.stSelect 0) (cmd onAir 65 [6553600, 0, 0, 5]) (mkSlot
    65 [6553600, 0, 0, 5])) ∧
  ((Instr.stRead 0, AirStep.reselect 0, true, false) ∈ [(Instr.stSelect 0, AirStep.wake, false, false),
    (Instr.stRead 0, AirStep.reselect 0, true, false), (Instr.stWrite 0, AirStep.reselect 0, true, false),
    (Instr.stHalt 0, AirStep.reselect 0, true, false), (Instr.stSense 0, AirStep.reselect 0, true, false),
    (Instr.stRaw 0, AirStep.raw, false, false), (Instr.gRead 0, AirStep.gSelect 0, false, true), (Instr.gWrite 0,
    AirStep.gSelect 0, false, true), (Instr.gLock 0, AirStep.gSelect 0, false, true), (Instr.gKill 0,
    AirStep.gSelect 0, false, true), (Instr.gRaw 0, AirStep.raw, false, true)] ∧ Starts (Instr.stRead 0) (cmd onAir
    66 [256]) (mkSlot 66 [256])) ∧
  ((Instr.stWrite 0, AirStep.reselect 0, true, false) ∈ [(Instr.stSelect 0, AirStep.wake, false, false),
    (Instr.stRead 0, AirStep.reselect 0, true, false), (Instr.stWrite 0, AirStep.reselect 0, true, false),
    (Instr.stHalt 0, AirStep.reselect 0, true, false), (Instr.stSense 0, AirStep.reselect 0, true, false),
    (Instr.stRaw 0, AirStep.raw, false, false), (Instr.gRead 0, AirStep.gSelect 0, false, true), (Instr.gWrite 0,
    AirStep.gSelect 0, false, true), (Instr.gLock 0, AirStep.gSelect 0, false, true), (Instr.gKill 0,
    AirStep.gSelect 0, false, true), (Instr.gRaw 0, AirStep.raw, false, true)] ∧ Starts (Instr.stWrite 0) (cmd onAir
    67 [1, 2]) (mkSlot 67 [1, 2])) ∧
  ((Instr.stHalt 0, AirStep.reselect 0, true, false) ∈ [(Instr.stSelect 0, AirStep.wake, false, false),
    (Instr.stRead 0, AirStep.reselect 0, true, false), (Instr.stWrite 0, AirStep.reselect 0, true, false),
    (Instr.stHalt 0, AirStep.reselect 0, true, false), (Instr.stSense 0, AirStep.reselect 0, true, false),
    (Instr.stRaw 0, AirStep.raw, false, false), (Instr.gRead 0, AirStep.gSelect 0, false, true), (Instr.gWrite 0,
    AirStep.gSelect 0, false, true), (Instr.gLock 0, AirStep.gSelect 0, false, true), (Instr.gKill 0,
    AirStep.gSelect 0, false, true), (Instr.gRaw 0, AirStep.raw, false, true)] ∧ Starts (Instr.stHalt 0) (cmd onAir
    68 [0]) (mkSlot 68 [0])) ∧
  ((Instr.stSense 0, AirStep.reselect 0, true, false) ∈ [(Instr.stSelect 0, AirStep.wake, false, false),
    (Instr.stRead 0, AirStep.reselect 0, true, false), (Instr.stWrite 0, AirStep.reselect 0, true, false),
    (Instr.stHalt 0, AirStep.reselect 0, true, false), (Instr.stSense 0, AirStep.reselect 0, true, false),
    (Instr.stRaw 0, AirStep.raw, false, false), (Instr.gRead 0, AirStep.gSelect 0, false, true), (Instr.gWrite 0,
    AirStep.gSelect 0, false, true), (Instr.gLock 0, AirStep.gSelect 0, false, true), (Instr.gKill 0,
    AirStep.gSelect 0, false, true), (Instr.gRaw 0, AirStep.raw, false, true)] ∧ Starts (Instr.stSense 0) (cmd onAir
    69 [1]) (mkSlot 69 [1])) ∧
  ((Instr.stRaw 0, AirStep.raw, false, false) ∈ [(Instr.stSelect 0, AirStep.wake, false, false), (Instr.stRead 0,
    AirStep.reselect 0, true, false), (Instr.stWrite 0, AirStep.reselect 0, true, false), (Instr.stHalt 0,
    AirStep.reselect 0, true, false), (Instr.stSense 0, AirStep.reselect 0, true, false), (Instr.stRaw 0,
    AirStep.raw, false, false), (Instr.gRead 0, AirStep.gSelect 0, false, true), (Instr.gWrite 0, AirStep.gSelect 0,
    false, true), (Instr.gLock 0, AirStep.gSelect 0, false, true), (Instr.gKill 0, AirStep.gSelect 0, false, true),
    (Instr.gRaw 0, AirStep.raw, false, true)] ∧ Starts (Instr.stRaw 0) (cmd onAir 70 [7340032, 0]) (mkSlot 70
    [7340032, 0])) ∧
  ((Instr.gRead 0, AirStep.gSelect 0, false, true) ∈ [(Instr.stSelect 0, AirStep.wake, false, false), (Instr.stRead
    0, AirStep.reselect 0, true, false), (Instr.stWrite 0, AirStep.reselect 0, true, false), (Instr.stHalt 0,
    AirStep.reselect 0, true, false), (Instr.stSense 0, AirStep.reselect 0, true, false), (Instr.stRaw 0,
    AirStep.raw, false, false), (Instr.gRead 0, AirStep.gSelect 0, false, true), (Instr.gWrite 0, AirStep.gSelect 0,
    false, true), (Instr.gLock 0, AirStep.gSelect 0, false, true), (Instr.gKill 0, AirStep.gSelect 0, false, true),
    (Instr.gRaw 0, AirStep.raw, false, true)] ∧ Starts (Instr.gRead 0) (cmd onAir 81 [96, 0, 0, 5, 0, 16777216])
    (mkSlot 81 [96, 0, 0, 5, 0, 16777216])) ∧
  ((Instr.gWrite 0, AirStep.gSelect 0, false, true) ∈ [(Instr.stSelect 0, AirStep.wake, false, false),
    (Instr.stRead 0, AirStep.reselect 0, true, false), (Instr.stWrite 0, AirStep.reselect 0, true, false),
    (Instr.stHalt 0, AirStep.reselect 0, true, false), (Instr.stSense 0, AirStep.reselect 0, true, false),
    (Instr.stRaw 0, AirStep.raw, false, false), (Instr.gRead 0, AirStep.gSelect 0, false, true), (Instr.gWrite 0,
    AirStep.gSelect 0, false, true), (Instr.gLock 0, AirStep.gSelect 0, false, true), (Instr.gKill 0,
    AirStep.gSelect 0, false, true), (Instr.gRaw 0, AirStep.raw, false, true)] ∧ Starts (Instr.gWrite 0) (cmd onAir
    82 [96, 0, 0, 5, 0, 553648128]) (mkSlot 82 [96, 0, 0, 5, 0, 553648128])) ∧
  ((Instr.gLock 0, AirStep.gSelect 0, false, true) ∈ [(Instr.stSelect 0, AirStep.wake, false, false), (Instr.stRead
    0, AirStep.reselect 0, true, false), (Instr.stWrite 0, AirStep.reselect 0, true, false), (Instr.stHalt 0,
    AirStep.reselect 0, true, false), (Instr.stSense 0, AirStep.reselect 0, true, false), (Instr.stRaw 0,
    AirStep.raw, false, false), (Instr.gRead 0, AirStep.gSelect 0, false, true), (Instr.gWrite 0, AirStep.gSelect 0,
    false, true), (Instr.gLock 0, AirStep.gSelect 0, false, true), (Instr.gKill 0, AirStep.gSelect 0, false, true),
    (Instr.gRaw 0, AirStep.raw, false, true)] ∧ Starts (Instr.gLock 0) (cmd onAir 83 [96, 0, 0, 5, 0, 0]) (mkSlot 83
    [96, 0, 0, 5, 0, 0])) ∧
  ((Instr.gKill 0, AirStep.gSelect 0, false, true) ∈ [(Instr.stSelect 0, AirStep.wake, false, false), (Instr.stRead
    0, AirStep.reselect 0, true, false), (Instr.stWrite 0, AirStep.reselect 0, true, false), (Instr.stHalt 0,
    AirStep.reselect 0, true, false), (Instr.stSense 0, AirStep.reselect 0, true, false), (Instr.stRaw 0,
    AirStep.raw, false, false), (Instr.gRead 0, AirStep.gSelect 0, false, true), (Instr.gWrite 0, AirStep.gSelect 0,
    false, true), (Instr.gLock 0, AirStep.gSelect 0, false, true), (Instr.gKill 0, AirStep.gSelect 0, false, true),
    (Instr.gRaw 0, AirStep.raw, false, true)] ∧ Starts (Instr.gKill 0) (cmd onAir 84 [96, 0, 0, 5, 0, 1]) (mkSlot 84
    [96, 0, 0, 5, 0, 1])) ∧
  ((Instr.gRaw 0, AirStep.raw, false, true) ∈ [(Instr.stSelect 0, AirStep.wake, false, false), (Instr.stRead 0,
    AirStep.reselect 0, true, false), (Instr.stWrite 0, AirStep.reselect 0, true, false), (Instr.stHalt 0,
    AirStep.reselect 0, true, false), (Instr.stSense 0, AirStep.reselect 0, true, false), (Instr.stRaw 0,
    AirStep.raw, false, false), (Instr.gRead 0, AirStep.gSelect 0, false, true), (Instr.gWrite 0, AirStep.gSelect 0,
    false, true), (Instr.gLock 0, AirStep.gSelect 0, false, true), (Instr.gKill 0, AirStep.gSelect 0, false, true),
    (Instr.gRaw 0, AirStep.raw, false, true)] ∧ Starts (Instr.gRaw 0) (cmd onAir 85 [16777224, 0]) (mkSlot 85
    [16777224, 0])) ∧
  (((cmd onAir 66 [256]).quads[lead (cmd onAir 66 [256]) (quadField (mkSlot 66 [256]))].sel = some
    { name := 5, ticket := 7, rid := 3, st := StPrm.zero }) ∧ Instr.stRead 0 ∈ [Instr.stRead 0, Instr.stWrite 0,
    Instr.stSense 0] ∧ Starts (Instr.stRead 0) (cmd onAir 66 [256]) (mkSlot 66 [256])) ∧
  (((cmd onAir 67 [1, 2]).quads[lead (cmd onAir 67 [1, 2]) (quadField (mkSlot 67 [1, 2]))].sel = some
    { name := 5, ticket := 7, rid := 3, st := StPrm.zero }) ∧ Instr.stWrite 0 ∈ [Instr.stRead 0, Instr.stWrite 0,
    Instr.stSense 0] ∧ Starts (Instr.stWrite 0) (cmd onAir 67 [1, 2]) (mkSlot 67 [1, 2])) ∧
  (((cmd onAir 69 [1]).quads[lead (cmd onAir 69 [1]) (quadField (mkSlot 69 [1]))].sel = some
    { name := 5, ticket := 7, rid := 3, st := StPrm.zero }) ∧ Instr.stSense 0 ∈ [Instr.stRead 0, Instr.stWrite 0,
    Instr.stSense 0] ∧ Starts (Instr.stSense 0) (cmd onAir 69 [1]) (mkSlot 69 [1])) := by
  refine ⟨?_, ?_, ?_, ?_, ?_, ?_, ?_, ?_, ?_, ?_, ?_, ?_, ?_, ?_⟩ <;>
    (first | decide +kernel | (simp only [Starts, hostRow]; decide +kernel))

theorem witness_RoundsAndFramesOpenExchanges :
  ((jobOf (jobAt roundJob0 (some dueFrame)) 0 = some roundJob0) ∧ (roundJob roundJob0 = true) ∧ (roundJob0.inRound
    = false) ∧ (frameDue (jobAt roundJob0 (some dueFrame)) 0 roundJob0 = true) ∧ ((jobAt roundJob0 (some
    dueFrame)).patch.hold = none) ∧ (∀ r : Quad, ¬ r < lead (jobAt roundJob0 (some dueFrame)) 0)) ∧
  ((jobOf (jobAt inRoundJob (some dueFrame)) 0 = some inRoundJob) ∧ (laterDue (jobAt inRoundJob (some dueFrame)) 0
    inRoundJob = true)) ∧
  ((jobOf (jobAt isoJob0 (some dueFrame)) 0 = some isoJob0) ∧ (laterDue (jobAt isoJob0 (some dueFrame)) 0 isoJob0 =
    true)) ∧
  ((exchOf (airWith (exch0 RxPhase.blanked Expect.bit)) 0 = some (exch0 RxPhase.blanked Expect.bit)) ∧ ((exch0
    RxPhase.blanked Expect.bit).phase = RxPhase.blanked) ∧ ((exch0 RxPhase.blanked Expect.bit).endAt ≤ (airWith
    (exch0 RxPhase.blanked Expect.bit)).ecyc)) ∧
  ((exchOf (airWith (exch0 RxPhase.blanked Expect.none)) 0 = some (exch0 RxPhase.blanked Expect.none)) ∧ ((exch0
    RxPhase.blanked Expect.none).phase = RxPhase.blanked) ∧ ((exch0 RxPhase.blanked Expect.none).endAt ≤ (airWith
    (exch0 RxPhase.blanked Expect.none)).ecyc)) ∧
  ((exchOf (airWith (exch0 RxPhase.settle Expect.bit)) 0 = some (exch0 RxPhase.settle Expect.bit)) ∧ ((exch0
    RxPhase.settle Expect.bit).phase = RxPhase.settle) ∧ ((exch0 RxPhase.settle Expect.bit).endAt + 2949 ≤ (airWith
    (exch0 RxPhase.settle Expect.bit)).ecyc)) ∧
  ((exchOf (airWith (exch0 RxPhase.noise Expect.bit)) 0 = some (exch0 RxPhase.noise Expect.bit)) ∧ ((exch0
    RxPhase.noise Expect.bit).phase = RxPhase.noise) ∧ ((exch0 RxPhase.noise Expect.bit).endAt + 4424 ≤ (airWith
    (exch0 RxPhase.noise Expect.bit)).ecyc)) ∧
  ((exchOf (airWith (exch0 RxPhase.hunt Expect.bit)) 0 = some (exch0 RxPhase.hunt Expect.bit)) ∧ ((exch0
    RxPhase.hunt Expect.bit).phase = RxPhase.hunt) ∧ ((exch0 RxPhase.hunt Expect.bit).deadline ≤ (airWith (exch0
    RxPhase.hunt Expect.bit)).ecyc)) ∧
  ((airWith (exch0 .noise .bit)).mapsOk = true ∧ (0 : Port) ∈ groupPorts (airWith (exch0 .noise .bit)) 0 ∧
    portPresent (airWith (exch0 .noise .bit)) 0 = true ∧ [5, 7] ≠ ([] : List Nat)) ∧
  ((airWith (exch0 .hunt (.frame 9))).ports[0].recv = none ∧ (exch0 .hunt (.frame 9)).deadline ≤
    (airWith (exch0 .hunt (.frame 9))).ecyc) := by
  refine ⟨?_, ?_, ?_, ?_, ?_, ?_, ?_, ?_, ?_, ?_⟩ <;> decide +kernel

theorem witness_GainAndCancellersStayInRange :
  ((onAir.mapsOk = true) ∧ (fieldIsOn onAir (quadOf 0) = true) ∧ (portPresent onAir 0 = true) ∧
    ((symbols 16 100).length = 16) ∧ (onAir.ports[0].agcAt ≤ onAir.ecyc) ∧ (bitAt (onAir.reg
    (aPort 0 18)) 5 = false) ∧ (onAir.quads[lead onAir (quadOf 0)].jug.stepFrom = none) ∧ (bitAt (onAir.inUse (aPort
    0 18)) 15 = false) ∧ (gainOf onAir 0 ≤ 30) ∧ (dsjHeld onAir 0 = false)) ∧
  ((dsjHeld (airWith (exch0 .hunt .bit)) 0 = true) ∧ (bitAt ((airWith (exch0 .hunt .bit)).reg (aPort 0 18)) 5 = false)) ∧
  ((onAir.mapsOk = true) ∧ (tracks onAir 0 = true) ∧ (onAir.ports[0].rfcAt ≤ onAir.ecyc)) ∧
  (((port0 onAir (fun p => { p with agcAt := 1000100, rfcAt := 1000100 })).mapsOk = true) ∧ (1000000 < 1000100)) ∧
  ((atRfcSaturates.mapsOk = true) ∧ (16 ≤ atRfcSaturates.ports[0].rfcRunI ∨ 16 ≤ atRfcSaturates.ports[0].rfcRunQ)) ∧
  (((airWith (exch0 RxPhase.hunt Expect.bit)).mapsOk = true) ∧ (portExch (airWith (exch0 RxPhase.hunt Expect.bit))
    0 = some (exch0 RxPhase.hunt Expect.bit)) ∧ (listening (exch0 RxPhase.hunt Expect.bit) = true) ∧ (-2000 < -1500)
    ∧ ((airWith (exch0 RxPhase.hunt Expect.bit)).ports[0].ovld = false) ∧ (portPresent (airWith (exch0 RxPhase.hunt
    Expect.bit)) 0 = true)) ∧
  ((portExch (chained (exch0 .finish (.frame 9)) (cand0 none) none) 0 = some (exch0 .finish (.frame 9))) ∧
    ((groupPorts (chained (exch0 .finish (.frame 9)) (cand0 none) none) (quadOf 0)).all (fun r => r == 0 ||
      (chained (exch0 .finish (.frame 9)) (cand0 none) none).ports[r].recv.isNone &&
      (chained (exch0 .finish (.frame 9)) (cand0 none) none).ports[r].standby.isNone) = true)) := by
  refine ⟨?_, ?_, ?_, ?_, ?_, ?_, ?_⟩ <;> decide +kernel

/-! ### A port that has heard nothing: its chain finds no pilot energy, whatever the loops' gains are -/

theorem sample_silent {g : ChainCfg} (h : g.buf = []) (i : Int) : g.sample i = Cx.zero := by
  simp [ChainCfg.sample, sampleAt, h]

theorem value_silent {g : ChainCfg} (h : g.buf = []) (k : Int) : g.value (16384 * k) = Cx.zero := by
  have e : rdiv (16384 * k) 1024 = 16 * k := by simp only [rdiv]; omega
  simp [ChainCfg.value, e, sample_silent h]

theorem corr_silent {g : ChainCfg} (h : g.buf = []) (chips : List Bool) (k : Int) : g.corr (16384 * k) chips = Cx.zero := by
  induction chips generalizing k with
  | nil => rfl
  | cons b t ih =>
    have e : ∀ i : Int, 16384 * k + 16384 * i = 16384 * (k + i) := fun i => by omega
    have e4 : (16384 * k + 65536 : Int) = 16384 * (k + 4) := by omega
    simp only [ChainCfg.corr, e, e4, ih, value_silent h]
    cases b <;> decide

/-- The trackers stand on a lock's raster, and no pilot had any energy. -/
def Still (c : Chain) : Prop := (∃ m, c.loop = ⟨1048576 * m, 0, 0, 0⟩) ∧ ∀ x ∈ c.pilots, x.2.1 = Cx.zero

theorem clamp_zero {n : Int} (h : 0 ≤ n) : clampTo (-n) n 0 = 0 := by simp only [clampTo]; omega

theorem lim_nonneg (g : ChainCfg) : 0 ≤ g.lim := by
  simp only [ChainCfg.lim, maxStep, turn]; omega

theorem known_still {g : ChainCfg} (h : g.buf = []) (pilot : Bool) (ch : List Bool) {c : Chain} (hc : Still c) :
    Still (c.known g pilot ch) := by
  obtain ⟨⟨m, hm⟩, hp⟩ := hc
  have z : g.corr (1048576 * m) ch = Cx.zero := by
    have := corr_silent h ch (64 * m); rwa [show (16384 * (64 * m) : Int) = 1048576 * m by omega] at this
  have z1 : g.corr (1048576 * m - 16384) ch = Cx.zero := by
    have := corr_silent h ch (64 * m - 1); rwa [show (16384 * (64 * m - 1) : Int) = 1048576 * m - 16384 by omega] at this
  have z2 : g.corr (1048576 * m + 16384) ch = Cx.zero := by
    have := corr_silent h ch (64 * m + 1); rwa [show (16384 * (64 * m + 1) : Int) = 1048576 * m + 16384 by omega] at this
  have a0 : angleOf Cx.zero = 0 := by decide
  have w0 : wrapTurn 0 = 0 := by decide
  have el : earlyLate Cx.zero Cx.zero = 0 := by decide
  refine ⟨⟨m + 1, ?_⟩, ?_⟩
  · simp only [Chain.known, hm, z, z1, z2, Loop.update, Loop.pass, a0, el, Int.sub_zero, w0, Int.mul_zero, Int.zero_ediv,
      Int.add_zero, clamp_zero (lim_nonneg g), clamp_zero (show (0 : Int) ≤ 2000 by decide), symbolSpan, rdiv]
    simp only [Loop.mk.injEq, and_true]; omega
  · simp only [Chain.known, hm, z]
    split
    · intro x hx; rcases List.mem_cons.mp hx with rfl | hx
      · rfl
      · exact hp x hx
    · exact hp

theorem data_still {g : ChainCfg} (h : g.buf = []) (sf4 last : Bool) (n i : Nat) {c : Chain} (hc : Still c) :
    Still (Chain.data g sf4 last n i c).2 := by
  induction n generalizing i c with
  | zero => exact hc
  | succ n ih =>
    obtain ⟨⟨m, hm⟩, hp⟩ := hc
    have hs : ∀ e, Still { c with eq := e, loop := c.loop.pass } := fun e =>
      ⟨⟨m + 1, by simp [hm, Loop.pass, symbolSpan, rdiv]; omega⟩, hp⟩
    simp only [Chain.data]
    split
    · exact ih _ (known_still h true _ (hs _))
    · exact ih _ (hs _)


theorem fold_still {α : Type} {g : ChainCfg} (h : g.buf = []) (f : α → Bool × List Bool) (l : List α) {c : Chain} (hc : Still c) :
    Still (l.foldl (fun c x => c.known g (f x).1 (f x).2) c) := by
  induction l generalizing c with
  | nil => exact hc
  | cons a t ih => exact ih (known_still h _ _ hc)

theorem demodulate_still {g : ChainCfg} (h : g.buf = []) (w : BitVec 16) (n : Nat) {c : Chain} (hc : Still c) :
    Still (demodulate g w n c).2 := by
  have hp := fold_still h (fun b => (false, symbolChips (codeCp g.cs) b)) (bitsMsb 16 w.toNat)
    (fold_still h (fun s => (false, s)) (List.replicate n (symbolChips (codeCp g.cs) false)) hc)
  simp only [demodulate]
  split
  · exact data_still h _ _ _ _ hp
  · exact data_still h _ _ _ _ (data_still h _ _ _ _ hp)

theorem quality_silent {s : State} {p : Port} {x : Exch} {c : Cand} {e : Nat} (hb : (chainCfg s p x c.lockAt).buf = [])
    (h0 : c.coarse = 0) (hz : correlate x.chip (chainCfg s p x c.lockAt).buf (codeChips (codeCp x.cs)) c.lockAt = Cx.zero) :
    (qualityOf s p x c e).num = 0 ∧ (0 < s.ports[p].noise.num → 0 < (qualityOf s p x c e).den) := by
  have a0 : angleOf Cx.zero = 0 := by decide
  have hs : Still (Chain.start (chainCfg s p x c.lockAt) c.coarse
      (correlate x.chip (chainCfg s p x c.lockAt).buf (codeChips (codeCp x.cs)) c.lockAt)) :=
    ⟨⟨0, by simp [Chain.start, Loop.start, hz, h0, a0, clamp_zero (lim_nonneg _)]⟩, by simp [Chain.start]⟩
  have hd := (demodulate_still hb (BitVec.ofNat 16 (fld (s.inUse (aPort p 0x10)) 15 0)) ((e - c.lockAt) / (16 * x.chip) - 16) hs).2
  have hr : ∀ a : Int, rotated Cx.zero a = Cx.zero := fun a => by simp [rotated, Cx.zero, rdiv]
  have he : (Cx.zero.add Cx.zero).energy = 0 := by decide
  simp only [qualityOf, chainOf]
  split
  · rename_i a b t hl
    have ha : a.2.1 = Cx.zero := hd a (List.mem_reverse.mp (hl ▸ List.mem_cons_self))
    have hc : b.2.1 = Cx.zero := hd b (List.mem_reverse.mp (hl ▸ List.mem_cons_of_mem _ List.mem_cons_self))
    simp only [pilotQuality, ha, hc, hr, he, Nat.zero_mul, true_and]
    omega
  · exact ⟨rfl, fun _ => Nat.one_pos⟩

/-- A ratio of 0 reaches no level. -/
theorem atLeast_zero {r : Ratio} (m : Int) (hn : r.num = 0) (hd : 0 < r.den) : r.atLeast m = false := by
  have : 0 < 10 ^ m.toNat * r.den ^ 10 := Nat.mul_pos (Nat.pow_pos (by decide)) (Nat.pow_pos hd)
  simp only [Ratio.atLeast, Ratio.atStep, hn, decide_eq_false_iff_not, Nat.not_le]
  simpa using this

/-- A frame with a chip of 3 E-cycles that synced at 995,500 has ended long before 1,100,000, whatever it holds. -/
theorem replies_end (s : State) (x : Exch) (rx : RxContent) (hx : x.chip = 3) (hs : s.ecyc = 1100000) (c : Cand) (h1 : c.replayAt = 995000)
    (h2 : c.lockAt = 995000) : processedAt c (replyEnd s x 995500 rx) + 2 * x.chip + 40 ≤ s.ecyc := by
  have h : replyEnd s x 995500 rx ≤ 1099954 := by
    cases rx with
    | iso ok bits => simp only [replyEnd, hx, hs]; omega
    | stamet hdr ws crc =>
      have : wordsOf hdr < 16 := Nat.mod_lt _ (by decide)
      simp only [replyEnd, symbolsAfter, payloadSymbols, hx]
      split
      · omega
      · split <;> omega
  simp only [processedAt, hx, hs, h1, h2]
  omega

theorem witness_ChainsLockSyncAndFalseStart :
  ((atChainLocks.mapsOk = true) ∧ (portExch (quietRx atChainLocks) 0 = some atChainLocksExchange) ∧
    (atChainLocksExchange.phase = RxPhase.hunt) ∧ atChainLocksExchange.expects ≠ Expect.bit ∧
    ((quietRx atChainLocks).ports[0].ovld = false) ∧ (portPresent (quietRx atChainLocks) 0 = true) ∧
    ((quietRx atChainLocks).ecyc ≤ atChainLocksExchange.deadline) ∧ ((quietRx atChainLocks).ports[0].recv = none) ∧
    (preMin (quietRx atChainLocks) 0 = 4) ∧
    (lockOf (heardCp (quietRx atChainLocks) 1000000 4 100) 0 atChainLocksExchange lockMeas0 = some (symbols 4 6400))) ∧
  (lockOf (quietRx atChainLocks) 0 atChainLocksExchange lockMeas0 = none) ∧
  ((portExch (occupied none) 0 = some atChainLocksExchange) ∧ ((occupied none).ports[0].recv = some (weak none)) ∧
    ((weak none).tz ≠ true) ∧ ((weak none).lockAt ≠ (occupied none).ecyc) ∧
    (sameTiming atChainLocksExchange (weak none).timing (occupied none).ecyc = false) ∧
    (standsAbove (occupied none) 0 (meanPower (occupied none) 0 (symbols 4 6400)) (powerNow (occupied none) 0
      atChainLocksExchange (weak none)) = true) ∧ (inWindow (occupied none) 0 atChainLocksExchange (weak none) = true)) ∧
  ((standsAbove (occupied (some 999000)) 0 (meanPower (occupied (some 999000)) 0 (symbols 4 6400)) (powerNow
      (occupied (some 999000)) 0 atChainLocksExchange (weak (some 999000))) = true) ∧
    (inWindow (occupied (some 999000)) 0 atChainLocksExchange (weak (some 999000)) = false)) ∧
  (standsAbove (occupied none) 0 (meanPower (occupied none) 0 (symbols 4 10)) (powerNow (occupied none) 0
      atChainLocksExchange (weak none)) = false) ∧
  ((portExch (quietRx (airWith isoExch)) 0 = some isoExch) ∧ (isoExch.phase = .hunt) ∧ (isoExch.iso = true) ∧
    ((lockOf (quietRx (airWith isoExch)) 0 isoExch isoSymbols).isSome = true)) ∧
  ((atChainSyncs.mapsOk = true) ∧ (portExch atChainSyncs 0 = some atChainLocksExchange) ∧
    (atChainSyncs.ports[0].recv = some atChainSyncsCandidate) ∧ (atChainSyncsCandidate.sync = none) ∧
    (listening atChainLocksExchange = true) ∧ (atChainLocksExchange.iso = false) ∧ (syncTaken atChainSyncs 0
    atChainLocksExchange false (atChainSyncs.ecyc - (atChainLocksExchange.chip + 24)) atChainSyncsCandidate = true)) ∧
  ((atStandbySyncs.ports[0].recv = some atStandbySyncsCandidate) ∧
    (atStandbySyncs.ports[0].standby = some atStandbySyncsCandidate2) ∧ (atStandbySyncsCandidate.sync = none) ∧
    (syncTaken atStandbySyncs 0 atChainLocksExchange true (atStandbySyncs.ecyc - (atChainLocksExchange.chip + 24))
      atStandbySyncsCandidate2 = true)) ∧
  ((portExch (chained isoExch isoLock none) 0 = some isoExch) ∧ ((chained isoExch isoLock none).ports[0].recv =
    some isoLock) ∧ (isoLock.sync = none) ∧ (listening isoExch = true) ∧
    (inT1 isoExch isoLock ((chained isoExch isoLock none).ecyc - (isoExch.chip + 24)) = true) ∧
    ((chained isoExch isoLock none).ecyc - (isoExch.chip + 24) ≤ isoExch.deadline) ∧
    ((chained isoExch isoLock none).ecyc - (isoExch.chip + 24) ≤ isoLock.due)) ∧
  ((atChainFails.mapsOk = true) ∧ (portExch atChainFails 0 = some (exch0 RxPhase.hunt (Expect.frame 9))) ∧
    (atChainFails.ports[0].recv = some atChainFailsCandidate) ∧ (atChainFailsCandidate.sync = none) ∧ (listening (exch0
    RxPhase.hunt (Expect.frame 9)) = true) ∧ (atChainFailsCandidate.due + (exch0
    RxPhase.hunt (Expect.frame 9)).chip + 24 ≤ atChainFails.ecyc)) ∧
  ((atPilotFails.mapsOk = true) ∧ (portExch (quietRx atPilotFails) 0 = some atPilotFailsExchange) ∧
    ((quietRx atPilotFails).ports[0].recv = some (cand0 (some 995500))) ∧ ((cand0 (some 995500)).sync = some 995500) ∧
    (atPilotFailsExchange.iso = false) ∧ (listening atPilotFailsExchange = true) ∧ (processedAt (cand0 (some
    995500)) (995500 + 256 * atPilotFailsExchange.chip) + 2 * atPilotFailsExchange.chip + 40 ≤ (quietRx atPilotFails).ecyc) ∧
    ((qualityOf (quietRx atPilotFails) 0 atPilotFailsExchange (cand0 (some 995500)) 995500).atLeast
      (fld ((quietRx atPilotFails).inUse (aPort 0 17)) 15 12) = false)) := by
  refine ⟨?_, ?_, ?_, ?_, ?_, ?_, ?_, ?_, ?_, ?_, ?_, ?_, ?_, ?_, ?_, ?_, ?_, ?_⟩
  case refine_18 =>
    have h := quality_silent (s := quietRx atPilotFails) (p := 0) (x := atPilotFailsExchange) (c := cand0 (some 995500))
      (e := 995500) (by decide +kernel) rfl (by decide +kernel)
    exact atLeast_zero _ h.1 (h.2 (by decide +kernel))
  all_goals decide +kernel

theorem witness_VerdictsAreTakenAndCombined :
  ((atVerdictBad.mapsOk = true) ∧ (portExch atVerdictBad 0 = some atVerdictBadExchange) ∧
    (atVerdictBad.ports[0].recv = some (cand0 (some 995500))) ∧ ((cand0 (some 995500)).sync = some 995500) ∧
    (listening atVerdictBadExchange = true) ∧ (processedAt (cand0 (some 995500)) (replyEnd atVerdictBad
    atVerdictBadExchange 995500 (decoded atVerdictBad 0 atVerdictBadExchange (cand0 (some 995500)) 995500 .stamet).rx) +
    2 * atVerdictBadExchange.chip + 40 ≤ atVerdictBad.ecyc) ∧ (takesPart atVerdictBad 0 = true)) ∧
  ((portExch isoHeard 0 = some isoExch) ∧ (isoHeard.ports[0].recv = some isoSynced) ∧ (isoSynced.sync = some 995500) ∧
    (processedAt isoSynced (replyEnd isoHeard isoExch 995500 (decoded isoHeard 0 isoExch isoSynced 995500 (.iso [] true [])).rx) +
      2 * isoExch.chip + 40 ≤ isoHeard.ecyc) ∧ (takesPart isoHeard 0 = true) ∧
    (verdictOk isoExch (decoded isoHeard 0 isoExch isoSynced 995500 (.iso [] true [])).rx = true)) ∧
  ((jobOf atCombines 0 = some inRoundJob) ∧ (exchOf atCombines 0 = some atCombinesExchange) ∧
    (atCombinesExchange.verdicts.head? = some (verdict0 true)) ∧ ((verdict0 true).at_ + 4 * atCombinesExchange.chip
    + 8 ≤ atCombines.ecyc)) ∧
  ((jobOf atCombinesF 0 = some inRoundJob) ∧ (exchOf atCombinesF 0 = some atCombinesFExchange) ∧
    (atCombinesFExchange.verdicts.head? = some (verdict0 false)) ∧ ((verdict0 false).at_ + 4 *
    atCombinesFExchange.chip + 8 ≤ atCombinesF.ecyc)) := by
  refine ⟨⟨?_, ?_, ?_, ?_, ?_, ?_, ?_⟩, ?_, ?_, ?_⟩
  case refine_6 => exact replies_end _ _ _ rfl rfl _ rfl rfl
  all_goals decide +kernel

/-- The classifier's device at the outcome of an exchange whose window holds one offset, with every port's floor known; its
outcomes are C0 alone, both, and none. -/
def bitExch : Exch := { exch0 .finish .bit with deadline := 996600 }
def bitDev : State :=
  { chained bitExch (cand0 none) none with
    ports := (chained bitExch (cand0 none) none).ports.map (fun p => { p with noise := { num := 1, den := 1 } }) }
def peaks (s : State) : Ratio × Ratio :=
  let ps := (groupPorts s 0).filter (takesPart s)
  ((peakOf s ps bitExch energyC0).1, (peakOf s ps bitExch energyC1).1)
def bitOne : State := heardBits bitDev 1000 0
def bitBoth : State := heardBits bitDev 1000 1000
theorem witness_bitReplies :
    ((bitDev.mapsOk = true) ∧ (exchOf bitDev 0 = some bitExch) ∧ (bitExch.expects = .bit) ∧ (bitExch.phase = .finish) ∧
      (bitExch.bit = none) ∧ (bitExch.deadline + bitExch.chip + 24 ≤ bitDev.ecyc) ∧
      (groupPorts bitDev 0).filter (takesPart bitDev) ≠ []) ∧
    ((peaks bitOne).1.atLeast (bitThr bitDev 0) = true ∧ (peaks bitOne).2.atLeast (bitThr bitDev 0) = false) ∧
    ((peaks bitBoth).2.atLeast (bitThr bitDev 0) = true ∧
      ((peaks bitBoth).2.over (peaks bitBoth).1).atLeast (-collDr bitDev 0) = true) ∧
    ((peaks bitDev).1.atLeast (bitThr bitDev 0) = false) := by
  refine ⟨?_, ?_, ?_, ?_⟩ <;> decide +kernel

theorem witness_ExchangesAndRoundsEnd :
  ((jobOf atExchangeEnds 0 = some inRoundJob) ∧ (exchOf atExchangeEnds 0 = some atExchangeEndsExchange) ∧
    (outcomeInstant atExchangeEnds 0 atExchangeEndsExchange = some 999990) ∧ (999990 + 8 ≤ atExchangeEnds.ecyc)) ∧
  ((jobOf atDwellEnds 0 = some atDwellEndsJob) ∧ (atDwellEndsJob.inRound = true) ∧ (atDwellEndsJob.dwellHit =
    false) ∧ (atDwellEndsJob.dwellAt = some 999000) ∧ (999000 ≤ atDwellEnds.ecyc)) ∧
  ((jobOf atRoundEnds 0 = some inRoundJob) ∧ (atRoundEnds.quads[lead atRoundEnds 0].next = some atRoundEndsNext) ∧
    (atRoundEndsNext.past = true) ∧ (atRoundEnds.quads[lead atRoundEnds 0].exch = none) ∧ (atRoundEndsNext.notBefore
    ≤ atRoundEnds.ecyc)) ∧
  ((jobOf atRoundEndsLast 0 = some atRoundEndsLastJob) ∧ (atRoundEndsLast.quads[lead atRoundEndsLast 0].next = some
    atRoundEndsNext) ∧ (atRoundEndsNext.past = true) ∧ (atRoundEndsLast.quads[lead atRoundEndsLast 0].exch = none) ∧
    (atRoundEndsNext.notBefore ≤ atRoundEndsLast.ecyc)) := by
  refine ⟨?_, ?_, ?_, ?_⟩ <;> decide +kernel

/-- A directory of a CX-0416 whose two buckets of one name are full of names that have no other bucket: no ninth fits. -/
def pairFull : SMap Entry :=
  (List.range 4).map (fun i => (4 * 2926 + i, freshEntry ([5, 23585438, 41557549, 52296886].getD i 0) false)) ++
    (List.range 4).map (fun i => (4 * 3914 + i, freshEntry ([71427914, 86377937, 104593762, 123476985].getD i 0) false))

/-- An update of a name that is not known, in an empty directory and in one with no place for it. -/
def atNewName : State := { idle with dir := { idle.dir with upd := some upd0 } }
def updFull : Upd := { upd0 with s := { sight0 with name := 142855834 } }
def atFullPair : State :=
  { idle with
    ecyc := 2000000, fuse := { idle.fuse with variant := .cx0416 },
    dir := { idle.dir with entries := pairFull, upd := some updFull } }

theorem witness_SightingsUpdateTheDirectory :
  ((atUpdateStarts.dir.fifo = [sight0]) ∧ (atUpdateStarts.dir.upd = none) ∧ (max sight0.vAt
    atUpdateStarts.dir.updFree ≤ atUpdateStarts.ecyc)) ∧
  ((atSightingApplied.mapsOk = true) ∧ (atSightingApplied.dir.upd = some upd0) ∧ (atSightingApplied.dir.record =
    none) ∧ (findName atSightingApplied.variant atSightingApplied.dir.entries upd0.s.name = some home5) ∧ (mfind
    atSightingApplied.dir.entries home5 = some (freshEntry 5 true)) ∧ ((stepPlan atSightingApplied upd0).snd ≤
    atSightingApplied.ecyc) ∧ (stepBlocked atSightingApplied (stepPlan atSightingApplied upd0).fst = false) ∧
    (atSightingApplied.dir.scan = none) ∧
    (eccPath 0 atSightingApplied (freshEntry upd0.s.name false) [] = (atSightingApplied, []))) ∧
  ((atNewName.mapsOk = true) ∧ (atNewName.dir.upd = some upd0) ∧ (atNewName.dir.record = none) ∧ (atNewName.dir.scan = none) ∧
    (findName atNewName.variant atNewName.dir.entries upd0.s.name = none) ∧ ((stepPlan atNewName upd0).2 ≤ atNewName.ecyc) ∧
    (stepBlocked atNewName (stepPlan atNewName upd0).1 = false) ∧ ((stepPlan atNewName upd0).1.handle = some home5)) ∧
  ((atFullPair.mapsOk = true) ∧ (atFullPair.dir.record = none) ∧ (atFullPair.dir.scan = none) ∧
    (findName atFullPair.variant atFullPair.dir.entries 142855834 = none) ∧ ((stepPlan atFullPair updFull).2 ≤ atFullPair.ecyc) ∧
    (stepBlocked atFullPair (stepPlan atFullPair updFull).1 = false) ∧ ((stepPlan atFullPair updFull).1.handle = none)) ∧
  ((atActionQueued.dir.record = none) ∧ (atActionQueued.dir.acts = [act0]) ∧ (act0.group = lead atActionQueued 0) ∧
    (act0.handle = some 4) ∧ (act0.readyAt ≤ atActionQueued.ecyc)) := by
  refine ⟨?_, ⟨?_, ?_, ?_, ?_, ?_, ?_, ?_, ?_, rfl⟩, ?_, ?_, ?_⟩ <;> decide +kernel

theorem witness_ScrubAndScans :
  (((withEntry idle).mapsOk = true) ∧ ((withEntry idle).isReady = true) ∧ (dirStepBusy (withEntry idle) = false) ∧
    ((withEntry idle).dir.freeAt ≤ (withEntry idle).ecyc) ∧ (home5 / 4 < Config.buckets (withEntry idle).variant)) ∧
  ((scanning.dir.scan = some (scan0 none)) ∧ (findSlot scanning (scan0 none).stamp = some (c0 scanning)) ∧ ((scan0
    none).per ≤ (scan0 none).items.length) ∧ (0 < (scan0 none).per) ∧ (scanReadAt (scan0 none) ((Option.map (fun x
    => x.snd) (List.take (scan0 none).per (scan0 none).items).getLast?).getD 0) + 1 ≤ scanning.ecyc) ∧ (hdrQuiet (c0
    scanning).hdr = false) ∧ (0 < placesFree scanning (c0 scanning).port)) ∧
  (((fullQueue scanning).dir.scan = some (scan0 none)) ∧ (findSlot (fullQueue scanning) (scan0 none).stamp = some
    (c0 scanning)) ∧ ((scan0 none).per ≤ (scan0 none).items.length) ∧ (0 < (scan0 none).per) ∧ (scanReadAt (scan0
    none) ((Option.map (fun x => x.snd) (List.take (scan0 none).per (scan0 none).items).getLast?).getD 0) + 1 ≤
    (fullQueue scanning).ecyc) ∧ (hdrQuiet (c0 scanning).hdr = false) ∧ (placesFree (fullQueue scanning) (c0
    scanning).port = 0) ∧ ((scan0 none).pauseFrom = none)) := by
  refine ⟨?_, ?_, ?_⟩ <;> decide +kernel

theorem witness_DirectoryCommandsCutAtDispatch :
  (Starts (Instr.dirLookup 0 []) (cmd (withEntry idle) 96 [0, 0, 5]) (mkSlot 96 [0, 0, 5])) ∧
  (Starts (Instr.dirLookup 0 [(home5 / 4, .double)]) (cmd idle 96 [0, 0, 5]) (mkSlot 96 [0, 0, 5])) ∧
  (Starts (Instr.dirClear 0) (cmd (withEntry idle) 98 [0]) (mkSlot 98 [0])) ∧
  (Starts (Instr.dirClear 0) (cmd (withEntry idle) 98 [1]) (mkSlot 98 [1])) ∧
  (Starts (Instr.dirClear 0) (cmd (withEntry idle) 98 [2]) (mkSlot 98 [2])) ∧
  (Starts (Instr.dirStats 0) (cmd (withEntry idle) 100 [3]) (mkSlot 100 [3])) ∧
  (Starts (Instr.dirLoad 0 []) (cmd idle 99 [2, 0, 0, 5, 0, 0, 6]) (mkSlot 99 [2, 0, 0, 5, 0, 0, 6])) ∧
  (Starts (Instr.dirStream 0 []) (cmd (withEntry idle) 97 [0]) (mkSlot 97 [0])) ∧
  (Starts (Instr.dirMissing 0 []) (cmd (withEntry idle) 101 [0, 0]) (mkSlot 101 [0, 0])) ∧
  (Starts (Instr.dirStream 0 [(3, .double)]) (cmd (withEntry idle) 97 [0]) (mkSlot 97 [0])) ∧
  (LastDue (owing idle 99 [1, 0, 0, 5] 999990 (.loadName 0 [])) 999990 (.loadName 0 []) ∧
    (place .cx1664 [] 0 (freshEntry 5 true)).handle = some home5) ∧
  ((findSlot scanOver 0 = some (c0 scanOver)) ∧ ((c0 scanOver).phase = .executing) ∧ ((c0 scanOver).paused = false) ∧
    ((c0 scanOver).effs = []) ∧ ((c0 scanOver).waits = .scan) ∧ ((c0 scanOver).early = []) ∧
    (scanOver.dir.scan = some { scan0 none with beginAt := 100, per := 27 }) ∧ (2 < 27) ∧
    (100 + 8 + 4 * Config.buckets scanOver.variant + 0 ≤ scanOver.ecyc)) := by
  refine ⟨?_, ?_, ?_, ?_, ?_, ?_, ?_, ?_, ?_, ?_, ?_, ?_⟩ <;>
    (first | decide +kernel | (simp only [Starts, hostRow, LastDue, Due]; decide +kernel))

theorem witness_AbsentWordsReadZeroAndIgnoreWrites :
    regQuad 0x0500 = some 1 ∧ Config.quads atAbsentQuad.variant ≤ 1 ∧ (0x0150 ≤ 0x0151 ∧ 0x0151 < 0x0154 ∧ 1 = 0x0151 - 0x0150) := by
  decide +kernel

theorem witness_ChannelsAndRingAreChecked :
  (hostRow (.ringMode 0) = some (0, 0x29, chkRingMode) ∧ findSlot (cmd leasedDev 0x29 [1]) 0 = some (mkSlot 0x29 [1]) ∧
    mayDispatch (cmd leasedDev 0x29 [1]) (mkSlot 0x29 [1]) = true ∧
      (opcodeChk (cmd leasedDev 0x29 [1]) (mkSlot 0x29 [1])).bad = false ∧
    tagInUse (cmd leasedDev 0x29 [1]) (mkSlot 0x29 [1]) = false ∧ (ringQuads .cx1664).any (fieldIsOn leasedDev) = false ∧
    holdsAll leasedDev 0 (ringQuads .cx1664) = false) ∧
  (hostRow (.synthSet 0) = some (0, 0x20, chkSynthSet) ∧
    findSlot (cmd leasedDev 0x20 [36693333]) 0 = some (mkSlot 0x20 [36693333]) ∧
    mayDispatch (cmd leasedDev 0x20 [36693333]) (mkSlot 0x20 [36693333]) = true ∧
    (opcodeChk (cmd leasedDev 0x20 [36693333]) (mkSlot 0x20 [36693333])).bad = false ∧
    tagInUse (cmd leasedDev 0x20 [36693333]) (mkSlot 0x20 [36693333]) = false ∧ fld (36693333 : Word) 25 0 < 36693334) ∧
  (mayDispatch (cmd leasedDev 0x20 [40960001]) (mkSlot 0x20 [40960001]) = true ∧ 40960000 < fld (40960001 : Word)
    25 0) ∧
  (hostRow (.fieldOn 0) = some (0, 0x22, chkFieldOn) ∧ findSlot (cmd ownAll 0x22 [1]) 0 = some (mkSlot 0x22 [1]) ∧
    mayDispatch (cmd ownAll 0x22 [1]) (mkSlot 0x22 [1]) = true ∧ (opcodeChk (cmd ownAll 0x22 [1]) (mkSlot 0x22 [1])).bad = false ∧
    tagInUse (cmd ownAll 0x22 [1]) (mkSlot 0x22 [1]) = false ∧ channel ownAll 0 = none) := by
  refine ⟨?_, ?_, ?_, ?_⟩ <;> (first | decide +kernel | (simp only [hostRow]; decide +kernel))

theorem witness_RingTokensMoveAsOne :
  ((ringDev.ring = true) ∧ (quadPresent ringDev 1 = true)) ∧
  ((ringDev.ring = true) ∧ (quadPresent ringDev 1 = true) ∧ (ringDev.quads[1].token = Token.control) ∧
    (ringDev.quads[1].refreshAt + 2048 ≤ ringDev.ecyc) ∧ (ringDev.ecyc ≤ ringDev.quads[1].refreshAt + 3932)) := by
  refine ⟨?_, ?_⟩ <;> decide +kernel

theorem witness_RidsNeverRepeat :
  ((quadPresent idle 0 = true)) ∧
  ((quadPresent atRidSkips 0 = true)) ∧
  ((quadPresent ringDev 2 = true)) := by
  refine ⟨?_, ?_, ?_⟩ <;> decide +kernel

theorem witness_StandbySyncSwapsTheRoles :
    (portExch atStandbySyncs 0 = some atChainLocksExchange) ∧ (listening atChainLocksExchange = true) ∧
    (atStandbySyncs.ports[0].recv = some atStandbySyncsCandidate) ∧ (atStandbySyncs.ports[0].standby = some
    atStandbySyncsCandidate2) ∧ (atStandbySyncsCandidate.sync = none) ∧ (atStandbySyncsCandidate2.sync = none) ∧
    atStandbySyncsCandidate.tz ≠ atStandbySyncsCandidate2.tz ∧ (atStandbySyncs.ecyc - (atChainLocksExchange.chip +
    24) ≤ atChainLocksExchange.deadline) ∧ (atStandbySyncs.ecyc - (atChainLocksExchange.chip + 24) ≤
    atStandbySyncsCandidate2.due) ∧ (atChainLocksExchange.iso = false) ∧ (syncMatches atStandbySyncs 0 atChainLocksExchange
    atStandbySyncsCandidate2 (atStandbySyncs.ecyc - (atChainLocksExchange.chip + 24)) = true) := by
  decide +kernel

theorem witness_BarkerIsCheckedSkippedAndRecorded :
  ((findSlot atBarkerCeiling 0 = some (c0 (owing leasedDev 40 [1] 1000024 Effect.barkerArm))) ∧ fld (pw (c0 (owing
    leasedDev 40 [1] 1000024 Effect.barkerArm)) 0) 15 0 ≠ 0 ∧ (↑(fld atBarkerCeiling.boot.ceiling 9 0) < ↑(fld
    atBarkerCeiling.boot.ceiling 19 10) - 40)) ∧
  ((atBarkerSkips.mapsOk = true) ∧ (atBarkerSkips.bark.armed.getLsbD ↑0 = true) ∧ (slotAt atBarkerSkips 0 ≤
    atBarkerSkips.ecyc) ∧ (atBarkerSkips.ecyc < slotAt atBarkerSkips 0 + 122880) ∧ atBarkerSkips.ports[0].slotNo ≠
    slotAt atBarkerSkips 0 + 1 ∧ (∀ (r : Port), atBarkerSkips.ports[r].burst = none) ∧ (slotSkips atBarkerSkips 0 =
    true)) ∧
  ((armed.mapsOk = true) ∧ ((armed.hosts[armed.bark.owner].queue.all fun u => u.ukind != 2) = true)) := by
  refine ⟨?_, ?_, ?_⟩ <;> decide +kernel

theorem witness_AirCommandsNeedTheField :
  ((hostRow (Instr.stRead 0) = some (0, 66, chkStRead)) ∧ (isAirOp 66 = true) ∧ (if isSeqOp 66 = true then
    (maskQuads (fld (pw (mkSlot 66 [256]) 0) 3 0)).all (underControl (cmd leasedDev 66 [256])) = false else
    underControl (cmd leasedDev 66 [256]) (quadField (mkSlot 66 [256])) = false)) ∧
  ((hostRow (Instr.stRound 0) = some (0, 64, chkStRound)) ∧ (isAirOp 64 = true) ∧ (if isSeqOp 64 = true then
    (maskQuads (fld (pw (mkSlot 64 [1, 100, 0]) 0) 3 0)).all (underControl (cmd leasedDev 64 [1, 100, 0])) = false
    else underControl (cmd leasedDev 64 [1, 100, 0]) (quadField (mkSlot 64 [1, 100, 0])) = false)) := by
  refine ⟨?_, ?_⟩ <;> (first | decide +kernel | (simp only [hostRow]; decide +kernel))

/-- The step of an idle device answers a state, and the maps it starts from are canonical. -/
theorem witness_StepsKeepTheMapsCanonical : idle.mapsOk = true ∧ ∃ t, step idle = .next t :=
  ⟨by decide +kernel, _, rfl⟩

/-- A command that runs and whose answer is named, for the statements over every command's next state. -/
theorem witness_TheDieNeverChanges : ∃ t, exec (.nop 0) idle = .next t := ⟨_, rfl⟩

/-- A map in which each entry stands where its name is found meets the premise of the insertion statements. -/
theorem found_of_all {v : Variant} {m : SMap Entry} (h : m.all (fun e => findName v m e.2.name == some e.1) = true) :
    ∀ k x, mfind m k = some x → findName v m x.name = some k := by
  intro k x hk
  have := List.all_eq_true.mp h _ (mfind_mem hk)
  simpa using this

theorem witness_InsertionsLoseNoName :
    (msorted 0 (withEntry idle).dir.entries = true ∧
      (∀ h x, mfind (withEntry idle).dir.entries h = some x → findName .cx1664 (withEntry idle).dir.entries x.name = some h) ∧
      mfind (withEntry idle).dir.entries noEntry = none ∧
      (place .cx1664 (withEntry idle).dir.entries 0 (freshEntry 6 false)).handle.isSome = true ∧
      (place .cx1664 (withEntry idle).dir.entries 0 (freshEntry 6 false)).found = false) ∧
    (msorted 0 pairFull = true ∧ (∀ h x, mfind pairFull h = some x → findName .cx0416 pairFull x.name = some h) ∧
      mfind pairFull noEntry = none ∧ (place .cx0416 pairFull 0 (freshEntry 142855834 false)).handle = none) :=
  ⟨⟨by decide +kernel, found_of_all (by decide +kernel), by decide +kernel, by decide +kernel, by decide +kernel⟩,
    ⟨by decide +kernel, found_of_all (by decide +kernel), by decide +kernel, by decide +kernel⟩⟩

theorem witness_HandlesNameOnlyEntries :
    msorted 0 pairFull = true ∧
      ∀ h, 4 * Config.buckets .cx0416 ≤ h ∨ h = 0x3FFFF → mfind pairFull h = none := by
  refine ⟨by decide +kernel, fun h hh => ?_⟩
  cases e : mfind pairFull h with
  | none => rfl
  | some x =>
    have hm : ∀ y ∈ pairFull, y.1 < 16384 := by decide +kernel
    have := hm _ (mfind_mem e)
    simp only [Config.buckets] at hh
    omega

theorem witness_selection_reads :
    onAir.quads[lead onAir (quadField (mkSlot 0x42 [0x100]))].sel = some { name := 5, ticket := 7, rid := 3, st := StPrm.zero } ∧
      Starts (.stRead 0) (cmd onAir 0x42 [0x100]) (mkSlot 0x42 [0x100]) ∧
      ∃ t, exec (.stRead 0) (cmd onAir 0x42 [0x100]) = .next t :=
  ⟨by decide +kernel, by simp only [Starts, hostRow]; decide +kernel, _, rfl⟩

/-! ## Well-formed and ill-formed commands -/

/-- What a calibration measured on P0. -/
def portCal0 : PortCal :=
  { port := 0, phase := 0, level := 0, qAbove := 0, qShort := 0, img := 0, overload := false }
theorem test_wf_refuses :
    (Instr.tunePort 0 []).wf = false ∧ (Instr.calRun 0 (List.replicate 17 [portCal0])).wf = false ∧
      (Instr.receiveStepEnd 0 (List.replicate 17 portCal0)).wf = false ∧
      (Instr.huntStart 0 (List.replicate 17 { port := 0, energies := [] })).wf = false ∧
      (Instr.agcBlock 0 (symbols 15 0)).wf = false ∧ (Instr.agcBlock 0 (symbols 16 8192)).wf = false ∧
      (Instr.commandFrame 0 33 [0]).wf = false ∧
      (Instr.readyStretch 0 0).wf = false ∧ (Instr.readyStretch 0 257).wf = false ∧ (Instr.cuDataWindow 0 []).wf = false ∧
      (Instr.cuDataWindow 0 (List.replicate 65 0)).wf = false ∧ (Instr.lineFillEnd [0]).wf = false ∧
      (Instr.dirScrub 65536 .none).wf = false ∧ (Instr.preambleLock 0 false { lockMeas0 with rest := symbols 16 0 }).wf = false ∧
      (Instr.combinedVerdict 0 [List.replicate 17 { port := 0, pil := [] }]).wf = false := by
  decide +kernel

theorem test_wf_accepts :
    (Instr.nop 0).wf = true ∧ (Instr.commandFrame 0 33 [0, 0]).wf = true ∧ (Instr.readyStretch 0 256).wf = true ∧
      (Instr.lineFillEnd (List.replicate 64 0)).wf = true ∧ (Instr.agcBlock 0 (symbols 16 8191)).wf = true ∧
      (Instr.preambleLock 0 false lockMeas0).wf = true := by
  decide +kernel

/-! ## The spec's worked examples -/

/-- "checking a nine-byte block" (16_memory_port_crc.md): "123456789" on CU5 gives 0x0376_E6E7. -/
theorem test_crc_nineBytes :
    (after (exec (.cuDataWindow 1 [0x39000000])
      { after (exec (.cuDataWindow 1 [0x31323334, 0x35363738]) (after (exec (.cuStart 1) idle))) with
          regs := mset resetWord (after (exec (.cuDataWindow 1 [0x31323334, 0x35363738]) (after (exec (.cuStart 1) idle)))).regs
            0x1453 0x0000071F })).reg (aCu 5 5) = 0x0376E6E7 := by
  decide +kernel

/-- "a WALK0 frame" (03_stamet_air_protocol.md): RID 0x5C gives 0 0 1 1 0 0 0 and 16,512 E-cycles. -/
theorem test_walk0_frame :
    stExtend 0x5C false = [false, false, true, true, false, false, false] ∧ stLength 0 (stExtend 0x5C false) = 16512 := by
  decide +kernel

/-- "a short frame, a drain and a replay" (11_host_ports.md): the status word of HP2 with four units queued. -/
def hp2Queue : List OutUnit :=
  { fullUnit with body := [0] } :: List.replicate 3 { fullUnit with body := List.replicate 8 0 }
theorem test_statusWord :
    statusWordOf { idle with hosts := idle.hosts.set 2 { idle.hosts[2] with queue := hp2Queue, irq := true } } 2 = 0xA54010AF := by
  decide +kernel
theorem test_announcements :
    announceWord { kind := .frame, units := runPrefix 8 hp2Queue } = 0x5A0004FB ∧
      announceWord { kind := .drain, units := hp2Queue.drop 1 } = 0x5A0021DE ∧
      announceWord { kind := .replay, units := hp2Queue.drop 1 } = 0x5A0121DE := by
  decide +kernel

/-- "a capture read past the end of the timebase bank" (14_register_map.md). -/
def captured : State :=
  { idle with
    regs := [(0x1C06, 0x00000103)],
    tb := { idle.tb with capNow := 0x00025E310A40, capEpoch := 1, capPhase := 37 } }
theorem test_captureRead :
    (c0 (after (exec (.regRead 0) (cmd captured 0x10 [0x00061C03])))).body =
        [0x5E310A40, 0x25010002, 0x00000000, 0x00000103, 0x00000000, 0x00000000] ∧
      (after (exec (.regRead 0) (cmd captured 0x10 [0x00061C03]))).reg 0x0100 = 1 := by
  decide +kernel

/-- "a walk on the CX-0416" (14_register_map.md). -/
theorem test_capabilityWalk :
    [0x0008, 0x000A, 0x000C, 0x000E, 0x0013, 0x0018, 0x001A, 0x001C, 0x001E, 0x0020, 0x0022, 0x0011, 0x0016].map
        (capWord .cx0416) =
      [0x00110202, 0x00210202, 0x00310202, 0x00410305, 0x00610305, 0x00810202, 0x00910202, 0x00A10202, 0x00B10202,
        0x00C10202, 0xFFF10100, 0, 0] := by
  decide +kernel

/-- "the ceiling and a tapered beam" (06_transmit_chain.md): INDEX 72 on 16 ports is above a ceiling of 144 with GANT 24,
INDEX 71 is not, nor is INDEX 72 with four ports 3.00 dB down. -/
theorem test_ceiling :
    let s := { idle with boot := { idle.boot with ceiling := 0x00006090 } }
    admitsLevels s (List.replicate 16 24) = false ∧ admitsLevels s (List.replicate 16 23) = true ∧
      admitsLevels s (List.replicate 12 24 ++ List.replicate 4 12) = true := by
  decide +kernel

/-- "FIELD_ON and its refusal" (13_command_reference.md): the header's fields, and dispatch 48 E-cycles after entry. -/
theorem test_fieldOn_header :
    hdrOpc 0x2235005F = 0x22 ∧ hdrTag 0x2235005F = 3 ∧ hdrAlive 0x2235005F = 5 ∧ hdrLen 0x2235005F = 96 := by
  decide +kernel
theorem test_fieldOn_dispatch :
    mayDispatch { cmd leasedDev 0x22 [1] with ecyc := 900047 } (mkSlot 0x22 [1]) = false ∧
      mayDispatch { cmd leasedDev 0x22 [1] with ecyc := 900048 } (mkSlot 0x22 [1]) = true := by
  decide +kernel

end Sys2Proof.Tests
end

/-! # The frame of every command

The queue of commands that wait (`pending`) and the fuses (`fuse`) are written by almost nothing. Each operation of the
machine that gives a state has one lemma `<operation>_frame` that says it leaves both as they are, in the model's order, so
that each proof cites the ones before it; each row has `<row>_frame` for its outcome. -/

namespace Sys2Proof.Machine

/-- A state chosen by a condition has the queue and the fuses of the one chosen. -/
@[simp] theorem ite_frame {c : Prop} [Decidable c] (s t : State) :
    (if c then s else t).pending = (if c then s.pending else t.pending) ∧
      (if c then s else t).fuse = (if c then s.fuse else t.fuse) :=
  ⟨apply_ite .., apply_ite ..⟩

/-- Changes over a list keep what each of them keeps. -/
@[simp] theorem each_frame {α : Type} {l : List α} {f : α → State → State} {s : State}
    (h : ∀ x t, (f x t).pending = t.pending ∧ (f x t).fuse = t.fuse) :
    (each l f s).pending = s.pending ∧ (each l f s).fuse = s.fuse :=
  ⟨each_same State.pending (fun x _ t => (h x t).1) s, each_same State.fuse (fun x _ t => (h x t).2) s⟩

/-! Operations of Sys2Proof/Machine/Ops.lean -/

@[simp] theorem bump_frame (s : State) (a : Nat) :
    (bump s a).pending = s.pending ∧ (bump s a).fuse = s.fuse := by simp [bump]

@[simp] theorem returnTo_frame (s u : State) :
    (returnTo s u).pending = u.pending ∧ (returnTo s u).fuse = u.fuse := ⟨rfl, rfl⟩

/-! Operations of Sys2Proof/Machine/Fabric.lean -/

@[simp] theorem mwFresh_frame (s : State) :
    (mwFresh s).pending = s.pending ∧ (mwFresh s).fuse = s.fuse := by simp [mwFresh]

@[simp] theorem tbCapture_frame (s : State) (byTask : Bool) :
    (tbCapture s byTask).pending = s.pending ∧ (tbCapture s byTask).fuse = s.fuse := by simp [tbCapture]

@[simp] theorem dlyStart_frame (s : State) (k : DelayNo) :
    (dlyStart s k).pending = s.pending ∧ (dlyStart s k).fuse = s.fuse := by simp [dlyStart]

@[simp] theorem dlyStop_frame (s : State) (k : DelayNo) :
    (dlyStop s k).pending = s.pending ∧ (dlyStop s k).fuse = s.fuse := by simp [dlyStop]

@[simp] theorem outBit_frame (s : State) (n : BallNo) (b : Bool) :
    (outBit s n b).pending = s.pending ∧ (outBit s n b).fuse = s.fuse := by simp [outBit]

@[simp] theorem beginFieldCut_frame (s : State) (q : Quad) :
    (beginFieldCut s q).pending = s.pending ∧ (beginFieldCut s q).fuse = s.fuse := by simp [beginFieldCut]

@[simp] theorem taskAct_frame (s : State) (t : MwTask) :
    (taskAct s t).pending = s.pending ∧ (taskAct s t).fuse = s.fuse := by
  unfold taskAct
  split <;> simp

@[simp] theorem deliver_frame (s : State) (t : MwTask) :
    (deliver s t).pending = s.pending ∧ (deliver s t).fuse = s.fuse := by
  unfold deliver
  (repeat' split) <;> simp

@[simp] theorem deliverAll_frame (s : State) (c dst : Nat) :
    (deliverAll s c dst).pending = s.pending ∧ (deliverAll s c dst).fuse = s.fuse := by simp [deliverAll]

@[simp] theorem channelFire_frame (s : State) (c : Nat) (ev : MwEvent) :
    (channelFire s c ev).pending = s.pending ∧ (channelFire s c ev).fuse = s.fuse := by simp [channelFire]

@[simp] theorem groupAct_frame (s : State) (ev : MwEvent) :
    (groupAct s ev).pending = s.pending ∧ (groupAct s ev).fuse = s.fuse := by
  unfold groupAct
  (repeat' split) <;> simp

@[simp] theorem fire_frame (s : State) (ev : MwEvent) :
    (fire s ev).pending = s.pending ∧ (fire s ev).fuse = s.fuse := by simp [fire]

@[simp] theorem holdEvents_frame (s : State) (b : Bool) :
    (holdEvents s b).pending = s.pending ∧ (holdEvents s b).fuse = s.fuse := by simp [holdEvents]

@[simp] theorem raise_frame (s : State) (ev : MwEvent) :
    (raise s ev).pending = s.pending ∧ (raise s ev).fuse = s.fuse := by simp [raise]

@[simp] theorem judgeRaised_frame (s : State) :
    (judgeRaised s).pending = s.pending ∧ (judgeRaised s).fuse = s.fuse := by simp [judgeRaised]

@[simp] theorem regTask_frame (s : State) (t : MwTask) :
    (regTask s t).pending = s.pending ∧ (regTask s t).fuse = s.fuse := by simp [regTask]

@[simp] theorem fireQuad_frame (s : State) (q : Quad) (ev : Quad → MwEvent) :
    (fireQuad s q ev).pending = s.pending ∧ (fireQuad s q ev).fuse = s.fuse := by simp [fireQuad]

@[simp] theorem tbAdvance_frame (s : State) :
    (tbAdvance s).pending = s.pending ∧ (tbAdvance s).fuse = s.fuse := by simp [tbAdvance]

/-! Operations of Sys2Proof/Machine/Link.lean -/

@[simp] theorem queueUnit_frame (s : State) (h : HostPort) (u : OutUnit) :
    (queueUnit s h u).pending = s.pending ∧ (queueUnit s h u).fuse = s.fuse := by simp [queueUnit]

@[simp] theorem queueRecord_frame (s : State) (h : HostPort) (u : OutUnit) :
    (queueRecord s h u).pending = s.pending ∧ (queueRecord s h u).fuse = s.fuse := by simp [queueRecord]

@[simp] theorem discard_frame (s : State) (h : HostPort) (reason nbits : Nat) (w0 : Word) :
    (discard s h reason nbits w0).pending = s.pending ∧ (discard s h reason nbits w0).fuse = s.fuse :=
  by simp [discard]

@[simp] theorem boundVerdict_frame (s : State) (h : HostPort) (ok : Bool) :
    (boundVerdict s h ok).pending = s.pending ∧ (boundVerdict s h ok).fuse = s.fuse := by simp [boundVerdict]

@[simp] theorem commitFrame_frame (s : State) (h : HostPort) (w0 : Word) (bits : List Bool) :
    (commitFrame s h w0 bits).pending = s.pending ∧ (commitFrame s h w0 bits).fuse = s.fuse := by simp [commitFrame]

@[simp] theorem repeatFrame_frame (s : State) (h : HostPort) :
    (repeatFrame s h).pending = s.pending ∧ (repeatFrame s h).fuse = s.fuse := by simp [repeatFrame]

@[simp] theorem judgeFrame_frame (s : State) (h : HostPort) (nbits : Nat) (mosi : List Word) :
    (judgeFrame s h nbits mosi).pending = s.pending ∧ (judgeFrame s h nbits mosi).fuse = s.fuse :=
  by simp [judgeFrame]

@[simp] theorem irqWatch_frame (s : State) (h : HostPort) :
    (irqWatch s h).pending = s.pending ∧ (irqWatch s h).fuse = s.fuse := by simp [irqWatch]

@[simp] theorem irqAging_frame (s : State) (e : Nat) (h : HostPort) :
    (irqAging s e h).pending = s.pending ∧ (irqAging s e h).fuse = s.fuse := by
  unfold irqAging
  split <;> simp

/-! Operations of Sys2Proof/Machine/Ecc.lean -/

@[simp] theorem countEcc_frame (s : State) :
    (countEcc s).pending = s.pending ∧ (countEcc s).fuse = s.fuse := by simp [countEcc]

@[simp] theorem eccRead_frame (s : State) (bucket : Nat) (err : EccErr) :
    (eccRead s bucket err).pending = s.pending ∧ (eccRead s bucket err).fuse = s.fuse := by
  unfold eccRead
  split <;> simp

@[simp] theorem scanErr_frame (s : State) (x : Nat × EccErr) :
    (scanErr s x).pending = s.pending ∧ (scanErr s x).fuse = s.fuse := by simp [scanErr]

@[simp] theorem scanFinds_frame (s : State) (reads : Nat × EccErr → Bool) (at_ : Nat → Nat) :
    (scanFinds s reads at_).pending = s.pending ∧ (scanFinds s reads at_).fuse = s.fuse := by
  unfold scanFinds
  split <;> simp

@[simp] theorem scanErrs_frame (s : State) (e : Nat) :
    (scanErrs s e).pending = s.pending ∧ (scanErrs s e).fuse = s.fuse := by
  unfold scanErrs
  split <;> simp

/-! Operations of Sys2Proof/Machine/Cut.lean -/

@[simp] theorem takeCut_frame (s : State) (e : Nat) :
    (takeCut s e).pending = s.pending ∧ (takeCut s e).fuse = s.fuse := by simp [takeCut]

@[simp] theorem showMade_frame (s : State) (a : Nat) :
    (showMade s a).pending = s.pending ∧ (showMade s a).fuse = s.fuse := by simp [showMade]

/-- A command's own change keeps what it keeps (R426). -/
@[simp] theorem inCommand_frame {s : State} {b : Bool} {f : State → State}
    (h : ∀ t, (f t).pending = t.pending ∧ (f t).fuse = t.fuse) :
    (inCommand s b f).pending = s.pending ∧ (inCommand s b f).fuse = s.fuse := by
  simp [inCommand, h]

/-- A change in an E-cycle of its own keeps what it keeps (R51, R408). -/
@[simp] theorem atTime_frame {s : State} {e : Nat} {f : State → State}
    (h : ∀ t, (f t).pending = t.pending ∧ (f t).fuse = t.fuse) :
    (atTime s e f).pending = s.pending ∧ (atTime s e f).fuse = s.fuse := by
  simp [atTime, h]

@[simp] theorem tbWriteCapture_frame (s : State) :
    (tbWriteCapture s).pending = s.pending ∧ (tbWriteCapture s).fuse = s.fuse := by simp [tbWriteCapture]

/-! Operations of Sys2Proof/Machine/Carousel.lean -/

@[simp] theorem startSlot_frame (s : State) (k : Word) :
    (startSlot s k).pending = s.pending ∧ (startSlot s k).fuse = s.fuse := by simp [startSlot]

@[simp] theorem refuse_frame (s : State) (k : Word) (c : Chk) (tag : Bool) :
    (refuse s k c tag).pending = s.pending ∧ (refuse s k c tag).fuse = s.fuse := by simp [refuse]

/-- A host command's row keeps what its action keeps (R346, R368). -/
theorem attempt_frame {s : State} {k : Word} {opcOk : Nat → Bool} {chks : State → Slot → List Chk}
    {act : State → Slot → State} (h : ∀ t sl, (act t sl).pending = t.pending ∧ (act t sl).fuse = t.fuse) :
    (attempt s k opcOk chks act).pending = s.pending ∧ (attempt s k opcOk chks act).fuse = s.fuse := by
  unfold attempt
  (repeat' split) <;> simp [h]

@[simp] theorem owe_frame (s : State) (k : Word) (effs : List (Nat × Effect)) (body : List Word) :
    (owe s k effs body).pending = s.pending ∧ (owe s k effs body).fuse = s.fuse := by simp [owe]

@[simp] theorem setStatus_frame (s : State) (k : Word) (st : BitVec 8) (pwd : Nat) :
    (setStatus s k st pwd).pending = s.pending ∧ (setStatus s k st pwd).fuse = s.fuse := by simp [setStatus]

@[simp] theorem sendEarly_frame (s : State) (k : Word) (sl : Slot) (b : List Word) (rest : List (List Word)) :
    (sendEarly s k sl b rest).pending = s.pending ∧ (sendEarly s k sl b rest).fuse = s.fuse := by simp [sendEarly]

@[simp] theorem complete_frame (s : State) (k : Word) (t : Nat) :
    (complete s k t).pending = s.pending ∧ (complete s k t).fuse = s.fuse := by
  unfold complete
  (repeat' split) <;> simp

@[simp] theorem endCommand_frame (s : State) (k : Word) (st : BitVec 8) :
    (endCommand s k st).pending = s.pending ∧ (endCommand s k st).fuse = s.fuse := by simp [endCommand]

@[simp] theorem noteLast_frame (s : State) (h : HostPort) (stamp : Word) (st : BitVec 8)
    (first : Option OutUnit) (multi : Bool) :
    (noteLast s h stamp st first multi).pending = s.pending ∧ (noteLast s h stamp st first multi).fuse = s.fuse :=
  by simp [noteLast]

@[simp] theorem flushNotices_frame (s : State) :
    (flushNotices s).pending = s.pending ∧ (flushNotices s).fuse = s.fuse := by simp [flushNotices]

@[simp] theorem queueReply_frame (s : State) (sl : Slot) :
    (queueReply s sl).pending = s.pending ∧ (queueReply s sl).fuse = s.fuse := by simp [queueReply]

@[simp] theorem endCycle_frame (s : State) :
    (endCycle s).pending = s.pending ∧ (endCycle s).fuse = s.fuse := by simp [endCycle]

@[simp] theorem endStretches_frame (s : State) :
    (endStretches s).pending = s.pending ∧ (endStretches s).fuse = s.fuse := each_frame fun h t => by
  (repeat' split) <;> simp

@[simp] theorem restamp_frame (s : State) (k : Word) :
    (restamp s k).pending = s.pending ∧ (restamp s k).fuse = s.fuse := by simp [restamp]

@[simp] theorem enterFrame_frame (s : State) (e : Entering) :
    (enterFrame s e).pending = s.pending ∧ (enterFrame s e).fuse = s.fuse := by simp [enterFrame]

/-! Operations of Sys2Proof/Machine/Geometry.lean -/

@[simp] theorem geomApply_frame (s : State) :
    (geomApply s).pending = s.pending ∧ (geomApply s).fuse = s.fuse := by simp [geomApply]

/-! Operations of Sys2Proof/Machine/Crc.lean -/

@[simp] theorem cuSet_frame (s : State) (u : Nat) (v : Word) :
    (cuSet s u v).pending = s.pending ∧ (cuSet s u v).fuse = s.fuse := by simp [cuSet]

@[simp] theorem cuConfigure_frame (s : State) (u : Nat) :
    (cuConfigure s u).pending = s.pending ∧ (cuConfigure s u).fuse = s.fuse := by simp [cuConfigure]

@[simp] theorem cuFeedBit_frame (u : Nat) (b : Bool) (s : State) :
    (cuFeedBit u b s).pending = s.pending ∧ (cuFeedBit u b s).fuse = s.fuse := by simp [cuFeedBit]

@[simp] theorem cuFeed_frame (s : State) (u : Nat) (v : Word) :
    (cuFeed s u v).pending = s.pending ∧ (cuFeed s u v).fuse = s.fuse := by simp [cuFeed]

@[simp] theorem cuStart_frame (s : State) (u : Nat) :
    (cuStart s u).pending = s.pending ∧ (cuStart s u).fuse = s.fuse := by simp [cuStart]

@[simp] theorem cuCheck_frame (s : State) (u : Nat) (v : Word) :
    (cuCheck s u v).pending = s.pending ∧ (cuCheck s u v).fuse = s.fuse := by simp [cuCheck]

/-! Operations of Sys2Proof/Machine/Transmit.lean -/

@[simp] theorem synBit_frame (s : State) (q : Quad) (i : Nat) (b : Bool) :
    (synBit s q i b).pending = s.pending ∧ (synBit s q i b).fuse = s.fuse := by simp [synBit]

@[simp] theorem applyCodes_frame (s : State) (q : Quad) :
    (applyCodes s q).pending = s.pending ∧ (applyCodes s q).fuse = s.fuse := by simp [applyCodes]

@[simp] theorem portTx_frame (s : State) (p : Port) :
    (portTx s p).pending = s.pending ∧ (portTx s p).fuse = s.fuse := by simp [portTx]

@[simp] theorem refreshTx_frame (s : State) (q : Quad) :
    (refreshTx s q).pending = s.pending ∧ (refreshTx s q).fuse = s.fuse := by simp [refreshTx]

@[simp] theorem burstOff_frame (s : State) (p : Port) :
    (burstOff s p).pending = s.pending ∧ (burstOff s p).fuse = s.fuse := by simp [burstOff]

@[simp] theorem breakBurst_frame (s : State) (p : Port) :
    (breakBurst s p).pending = s.pending ∧ (breakBurst s p).fuse = s.fuse := by simp [breakBurst]

@[simp] theorem barkerFree_frame (s : State) (q : Quad) :
    (barkerFree s q).pending = s.pending ∧ (barkerFree s q).fuse = s.fuse := by simp [barkerFree]

@[simp] theorem breakBurstsAt_frame (s : State) (ps : List Port) :
    (breakBurstsAt s ps).pending = s.pending ∧ (breakBurstsAt s ps).fuse = s.fuse := by simp [breakBurstsAt]

@[simp] theorem breakBursts_frame (s : State) (q : Quad) :
    (breakBursts s q).pending = s.pending ∧ (breakBursts s q).fuse = s.fuse := by simp [breakBursts]

@[simp] theorem beginLock_frame (s : State) (q : Quad) :
    (beginLock s q).pending = s.pending ∧ (beginLock s q).fuse = s.fuse := by simp [beginLock]

@[simp] theorem powerDown_frame (s : State) (q : Quad) :
    (powerDown s q).pending = s.pending ∧ (powerDown s q).fuse = s.fuse := by simp [powerDown]

@[simp] theorem powerUp_frame (s : State) (q : Quad) :
    (powerUp s q).pending = s.pending ∧ (powerUp s q).fuse = s.fuse := by simp [powerUp]

@[simp] theorem powerSynths_frame (s : State) :
    (powerSynths s).pending = s.pending ∧ (powerSynths s).fuse = s.fuse := by simp [powerSynths]

@[simp] theorem applyNow_frame (s : State) (q : Quad) :
    (applyNow s q).pending = s.pending ∧ (applyNow s q).fuse = s.fuse := by simp [applyNow]

@[simp] theorem applyMark_frame (s : State) (q : Quad) :
    (applyMark s q).pending = s.pending ∧ (applyMark s q).fuse = s.fuse := by simp [applyMark]

@[simp] theorem writeBeam_frame (s : State) (q : Quad) (b : Nat) :
    (writeBeam s q b).pending = s.pending ∧ (writeBeam s q b).fuse = s.fuse := by simp [writeBeam]

/-! Operations of Sys2Proof/Machine/Tuner.lean -/

@[simp] theorem dropBase_frame (s : State) (p : Port) :
    (dropBase s p).pending = s.pending ∧ (dropBase s p).fuse = s.fuse := by simp [dropBase]

@[simp] theorem writeTuned_frame (s : State) (p : Port) (w : Word) :
    (writeTuned s p w).pending = s.pending ∧ (writeTuned s p w).fuse = s.fuse := by simp [writeTuned]

@[simp] theorem tuneStart_frame (s : State) (p : Port) :
    (tuneStart s p).pending = s.pending ∧ (tuneStart s p).fuse = s.fuse := by simp [tuneStart]

@[simp] theorem tuneEnd_frame (s : State) (k : Word) (p : Port) (meas : List TuneMeas) :
    (tuneEnd s k p meas).pending = s.pending ∧ (tuneEnd s k p meas).fuse = s.fuse := by simp [tuneEnd]

@[simp] theorem tuneCut_frame (s : State) (x : Slot) (leaseLost : Bool) :
    (tuneCut s x leaseLost).pending = s.pending ∧ (tuneCut s x leaseLost).fuse = s.fuse := by
  unfold tuneCut
  split <;> simp

@[simp] theorem applyIfIdle_frame (s : State) (q : Quad) :
    (applyIfIdle s q).pending = s.pending ∧ (applyIfIdle s q).fuse = s.fuse := by simp [applyIfIdle]

/-! Operations of Sys2Proof/Machine/Jobs.lean -/

@[simp] theorem endHold_frame (s : State) (k : Word) :
    (endHold s k).pending = s.pending ∧ (endHold s k).fuse = s.fuse := by simp [endHold]

@[simp] theorem updSum_frame (s : State) (k : Word) (f : Summary → Summary) :
    (updSum s k f).pending = s.pending ∧ (updSum s k f).fuse = s.fuse := by simp [updSum]

@[simp] theorem clearAir_frame (s : State) (q : Quad) :
    (clearAir s q).pending = s.pending ∧ (clearAir s q).fuse = s.fuse := by simp [clearAir]

@[simp] theorem roundOver_frame (s : State) (q : Quad) (j : Job) :
    (roundOver s q j).pending = s.pending ∧ (roundOver s q j).fuse = s.fuse := by simp [roundOver]

@[simp] theorem endSequence_frame (s : State) (q : Quad) (j : Job) (st : BitVec 8) :
    (endSequence s q j st).pending = s.pending ∧ (endSequence s q j st).fuse = s.fuse := by simp [endSequence]

@[simp] theorem finishAir_frame (s : State) (q : Quad) (j : Job) (st : BitVec 8) (body : List Word)
    (code : BitVec 16) :
    (finishAir s q j st body code).pending = s.pending ∧ (finishAir s q j st body code).fuse = s.fuse :=
  by simp [finishAir]

@[simp] theorem stopJob_frame (s : State) (q : Quad) (st : BitVec 8) (off : Bool) :
    (stopJob s q st off).pending = s.pending ∧ (stopJob s q st off).fuse = s.fuse := by
  unfold stopJob
  split <;> simp

@[simp] theorem setToken_frame (s : State) (q : Quad) (tok : Token) :
    (setToken s q tok).pending = s.pending ∧ (setToken s q tok).fuse = s.fuse := by simp [setToken]

@[simp] theorem restoreToken_frame (s : State) (q : Quad) :
    (restoreToken s q).pending = s.pending ∧ (restoreToken s q).fuse = s.fuse := by simp [restoreToken]

@[simp] theorem yieldBarker_frame (s : State) (q : Quad) :
    (yieldBarker s q).pending = s.pending ∧ (yieldBarker s q).fuse = s.fuse := by simp [yieldBarker]

@[simp] theorem claimToken_frame (s : State) (q : Quad) :
    (claimToken s q).pending = s.pending ∧ (claimToken s q).fuse = s.fuse := by simp [claimToken]

@[simp] theorem setStep_frame (s : State) (q : Quad) (n : Nat) :
    (setStep s q n).pending = s.pending ∧ (setStep s q n).fuse = s.fuse := by simp [setStep]

@[simp] theorem stepOff_frame (s : State) (q : Quad) :
    (stepOff s q).pending = s.pending ∧ (stepOff s q).fuse = s.fuse := by simp [stepOff]

@[simp] theorem calLeave_frame (s : State) (q : Quad) :
    (calLeave s q).pending = s.pending ∧ (calLeave s q).fuse = s.fuse := by simp [calLeave]

@[simp] theorem calOver_frame (s : State) (q : Quad) (x : Slot) :
    (calOver s q x).pending = s.pending ∧ (calOver s q x).fuse = s.fuse := by simp [calOver]

@[simp] theorem abortSlot_frame (s : State) (q : Quad) (x : Slot) (st : BitVec 8) :
    (abortSlot s q x st).pending = s.pending ∧ (abortSlot s q x st).fuse = s.fuse := by simp [abortSlot]

@[simp] theorem stopGroup_frame (s : State) (q : Quad) (st : BitVec 8) (off : Bool) :
    (stopGroup s q st off).pending = s.pending ∧ (stopGroup s q st off).fuse = s.fuse := by simp [stopGroup]

@[simp] theorem dropSel_frame (s : State) (q : Quad) :
    (dropSel s q).pending = s.pending ∧ (dropSel s q).fuse = s.fuse := by simp [dropSel]

@[simp] theorem paEnable_frame (s : State) (q : Quad) (b : Bool) :
    (paEnable s q b).pending = s.pending ∧ (paEnable s q b).fuse = s.fuse := by simp [paEnable]

@[simp] theorem fieldDown_frame (s : State) (q : Quad) (tok : Token) :
    (fieldDown s q tok).pending = s.pending ∧ (fieldDown s q tok).fuse = s.fuse := by simp [fieldDown]

@[simp] theorem cutField_frame (s : State) (q : Quad) (tok : Token) :
    (cutField s q tok).pending = s.pending ∧ (cutField s q tok).fuse = s.fuse := by simp [cutField]

@[simp] theorem beginRamp_frame (s : State) (q : Quad) (st : BitVec 8) (off : Bool) :
    (beginRamp s q st off).pending = s.pending ∧ (beginRamp s q st off).fuse = s.fuse := by simp [beginRamp]

@[simp] theorem planCut_frame (s : State) (q : Quad) (flag : Nat) :
    (planCut s q flag).pending = s.pending ∧ (planCut s q flag).fuse = s.fuse := by simp [planCut]

@[simp] theorem fieldOnView_frame (s : State) (q : Quad) (mask : Nat) :
    (fieldOnView s q mask).pending = s.pending ∧ (fieldOnView s q mask).fuse = s.fuse := by simp [fieldOnView]

@[simp] theorem judgePlan_frame (s : State) :
    (judgePlan s).pending = s.pending ∧ (judgePlan s).fuse = s.fuse := by
  unfold judgePlan
  simp only [State.spend_pending, State.spend_fuse]
  exact each_frame fun q t => by split <;> simp

/-! Operations of Sys2Proof/Machine/Window.lean -/

@[simp] theorem readEffects_frame (s : State) (h : HostPort) (a : Nat) :
    (readEffects s h a).pending = s.pending ∧ (readEffects s h a).fuse = s.fuse := by simp [readEffects]

@[simp] theorem readBlock_frame (h : HostPort) (start a n : Nat) (s : State) :
    (readBlock h start a n s).2.pending = s.pending ∧ (readBlock h start a n s).2.fuse = s.fuse := by
  induction n generalizing a s with
  | zero => exact ⟨rfl, rfl⟩
  | succ n ih =>
    unfold readBlock
    split <;> simp [ih]

@[simp] theorem manualNow_frame (s : State) (p : Port) :
    (manualNow s p).pending = s.pending ∧ (manualNow s p).fuse = s.fuse := by simp [manualNow]

@[simp] theorem afterPort_frame (s : State) (p : Port) (off : Nat) (old v : Word) :
    (afterPort s p off old v).pending = s.pending ∧ (afterPort s p off old v).fuse = s.fuse := by simp [afterPort]

@[simp] theorem afterMidway_frame (s : State) (a : Nat) (v : Word) :
    (afterMidway s a v).pending = s.pending ∧ (afterMidway s a v).fuse = s.fuse := by simp [afterMidway]

@[simp] theorem cuWritten_frame (s : State) (u : Nat) :
    (cuWritten s u).pending = s.pending ∧ (cuWritten s u).fuse = s.fuse := by simp [cuWritten]

@[simp] theorem afterCrc_frame (s : State) (a : Nat) (v : Word) :
    (afterCrc s a v).pending = s.pending ∧ (afterCrc s a v).fuse = s.fuse := by simp [afterCrc]

@[simp] theorem afterWrite_frame (s : State) (a : Nat) (old v : Word) :
    (afterWrite s a old v).pending = s.pending ∧ (afterWrite s a old v).fuse = s.fuse := by simp [afterWrite]

@[simp] theorem placeWord_frame (s : State) (h : HostPort) (a : Nat) (v : Word) :
    (placeWord s h a v).pending = s.pending ∧ (placeWord s h a v).fuse = s.fuse := by simp [placeWord]

@[simp] theorem writeWord_frame (s : State) (h : HostPort) (a : Nat) (v : Word) :
    (writeWord s h a v).pending = s.pending ∧ (writeWord s h a v).fuse = s.fuse := by simp [writeWord]

@[simp] theorem writeBlock_frame (h : HostPort) (start a : Nat) (ws : List Word) (s : State) :
    (writeBlock h start a ws s).pending = s.pending ∧ (writeBlock h start a ws s).fuse = s.fuse := by
  simp -implicitDefEqProofs [writeBlock]

@[simp] theorem modifyWord_frame (s : State) (h : HostPort) (a : Nat) (mask v : Word) :
    (modifyWord s h a mask v).pending = s.pending ∧ (modifyWord s h a mask v).fuse = s.fuse := by simp [modifyWord]

/-! Operations of Sys2Proof/Machine/SysCmd.lean -/

@[simp] theorem grantLease_frame (s : State) (k : Word) (h : HostPort) (qs : BitVec 4) :
    (grantLease s k h qs).pending = s.pending ∧ (grantLease s k h qs).fuse = s.fuse := by simp [grantLease]

@[simp] theorem release_frame (s : State) (qs : List Quad) :
    (release s qs).pending = s.pending ∧ (release s qs).fuse = s.fuse := by simp [release]

@[simp] theorem fieldsOff_frame (s : State) (m : BitVec 4) :
    (fieldsOff s m).pending = s.pending ∧ (fieldsOff s m).fuse = s.fuse := by simp [fieldsOff]

/-! Operations of Sys2Proof/Machine/RadioCmd.lean -/

@[simp] theorem startCal_frame (s : State) (q : Quad) :
    (startCal s q).pending = s.pending ∧ (startCal s q).fuse = s.fuse := by simp [startCal]

@[simp] theorem holdFor_frame (s : State) (k : Word) (w : Await) :
    (holdFor s k w).pending = s.pending ∧ (holdFor s k w).fuse = s.fuse := by simp [holdFor]

@[simp] theorem waitFor_frame (s : State) (k : Word) (w : Await) :
    (waitFor s k w).pending = s.pending ∧ (waitFor s k w).fuse = s.fuse := by simp [waitFor]

@[simp] theorem refuseLate_frame (s : State) (k : Word) (st : BitVec 8) (pwd : Nat) :
    (refuseLate s k st pwd).pending = s.pending ∧ (refuseLate s k st pwd).fuse = s.fuse := by simp [refuseLate]

@[simp] theorem dropBaselines_frame (s : State) (q : Quad) :
    (dropBaselines s q).pending = s.pending ∧ (dropBaselines s q).fuse = s.fuse := by simp [dropBaselines]

@[simp] theorem jugOver_frame (s : State) (q : Quad) :
    (jugOver s q).pending = s.pending ∧ (jugOver s q).fuse = s.fuse := by simp [jugOver]

@[simp] theorem freqApply_frame (s : State) (k : Word) (q : Quad) (cal : Bool) :
    (freqApply s k q cal).pending = s.pending ∧ (freqApply s k q cal).fuse = s.fuse := by
  unfold freqApply
  (repeat' split) <;> simp

@[simp] theorem calStart_frame (s : State) (k : Word) (q : Quad) :
    (calStart s k q).pending = s.pending ∧ (calStart s k q).fuse = s.fuse := by simp [calStart]

@[simp] theorem enableDrivers_frame (s : State) (k : Word) (q : Quad) (mask : Nat) :
    (enableDrivers s k q mask).pending = s.pending ∧ (enableDrivers s k q mask).fuse = s.fuse :=
  by simp [enableDrivers]

@[simp] theorem wakeSyn_frame (s : State) (q : Quad) :
    (wakeSyn s q).pending = s.pending ∧ (wakeSyn s q).fuse = s.fuse := by simp [wakeSyn]

@[simp] theorem fieldOnCheck_frame (s : State) (k : Word) (sl : Slot) :
    (fieldOnCheck s k sl).pending = s.pending ∧ (fieldOnCheck s k sl).fuse = s.fuse := by simp [fieldOnCheck]

@[simp] theorem carrierOn_frame (s : State) (q : Quad) :
    (carrierOn s q).pending = s.pending ∧ (carrierOn s q).fuse = s.fuse := by simp [carrierOn]

@[simp] theorem powerWrite_frame (s : State) (sl : Slot) :
    (powerWrite s sl).pending = s.pending ∧ (powerWrite s sl).fuse = s.fuse := by simp [powerWrite]

@[simp] theorem powerCheck_frame (s : State) (k : Word) (sl : Slot) :
    (powerCheck s k sl).pending = s.pending ∧ (powerCheck s k sl).fuse = s.fuse := by simp [powerCheck]

@[simp] theorem tuneEnable_frame (s : State) (k : Word) (p : Port) (index hold : Nat) :
    (tuneEnable s k p index hold).pending = s.pending ∧ (tuneEnable s k p index hold).fuse = s.fuse :=
  by simp [tuneEnable]

@[simp] theorem tuneCheck_frame (s : State) (k : Word) (sl : Slot) :
    (tuneCheck s k sl).pending = s.pending ∧ (tuneCheck s k sl).fuse = s.fuse := by simp [tuneCheck]

@[simp] theorem tuneOff_frame (s : State) (q : Quad) :
    (tuneOff s q).pending = s.pending ∧ (tuneOff s q).fuse = s.fuse := by simp [tuneOff]

@[simp] theorem rampEnd_frame (s : State) (sl : Slot) (q : Quad) :
    (rampEnd s sl q).pending = s.pending ∧ (rampEnd s sl q).fuse = s.fuse := by simp [rampEnd]

@[simp] theorem loadBeam_frame (s : State) (sl : Slot) :
    (loadBeam s sl).pending = s.pending ∧ (loadBeam s sl).fuse = s.fuse := by simp [loadBeam]

@[simp] theorem beamLoadCheck_frame (s : State) (k : Word) (sl : Slot) :
    (beamLoadCheck s k sl).pending = s.pending ∧ (beamLoadCheck s k sl).fuse = s.fuse := by simp [beamLoadCheck]

@[simp] theorem beamWrite_frame (s : State) (k : Word) (sl : Slot) :
    (beamWrite s k sl).pending = s.pending ∧ (beamWrite s k sl).fuse = s.fuse := by simp [beamWrite]

@[simp] theorem beamSelectCheck_frame (s : State) (k : Word) (sl : Slot) :
    (beamSelectCheck s k sl).pending = s.pending ∧ (beamSelectCheck s k sl).fuse = s.fuse := by simp [beamSelectCheck]

@[simp] theorem ringChange_frame (s : State) (k : Word) (enter : Bool) :
    (ringChange s k enter).pending = s.pending ∧ (ringChange s k enter).fuse = s.fuse := by simp [ringChange]

@[simp] theorem relockOver_frame (s : State) (q : Quad) (tLock : Option Nat) :
    (relockOver s q tLock).pending = s.pending ∧ (relockOver s q tLock).fuse = s.fuse := by simp [relockOver]

@[simp] theorem lockGoesOn_frame (s : State) (q : Quad) (sl : Slot) :
    (lockGoesOn s q sl).pending = s.pending ∧ (lockGoesOn s q sl).fuse = s.fuse := by simp [lockGoesOn]

@[simp] theorem jugRelease_frame (s : State) (q : Quad) :
    (jugRelease s q).pending = s.pending ∧ (jugRelease s q).fuse = s.fuse := by simp [jugRelease]

@[simp] theorem jugDone_frame (s : State) (q : Quad) :
    (jugDone s q).pending = s.pending ∧ (jugDone s q).fuse = s.fuse := by simp [jugDone]

@[simp] theorem jugGiveUp_frame (s : State) (q : Quad) :
    (jugGiveUp s q).pending = s.pending ∧ (jugGiveUp s q).fuse = s.fuse := by
  unfold jugGiveUp
  split <;> simp

@[simp] theorem lockTimesOut_frame (s : State) (q : Quad) (sl : Slot) :
    (lockTimesOut s q sl).pending = s.pending ∧ (lockTimesOut s q sl).fuse = s.fuse := by simp [lockTimesOut]

@[simp] theorem unlockCut_frame (s : State) (l : Quad) :
    (unlockCut s l).pending = s.pending ∧ (unlockCut s l).fuse = s.fuse := by simp [unlockCut]

@[simp] theorem calWaiters_frame (s : State) (q : Quad) :
    (calWaiters s q).pending = s.pending ∧ (calWaiters s q).fuse = s.fuse := by simp [calWaiters]

/-! Operations of Sys2Proof/Machine/Directory.lean -/

@[simp] theorem insertFailed_frame (s : State) :
    (insertFailed s).pending = s.pending ∧ (insertFailed s).fuse = s.fuse := by simp [insertFailed]

@[simp] theorem commitPlace_frame (s : State) (r : Placed) :
    (commitPlace s r).pending = s.pending ∧ (commitPlace s r).fuse = s.fuse := by simp [commitPlace]

@[simp] theorem queueSight_frame (s : State) (h : HostPort) (n : Nat) (u : OutUnit) :
    (queueSight s h n u).pending = s.pending ∧ (queueSight s h n u).fuse = s.fuse := by simp [queueSight]

@[simp] theorem noteHandle_frame (s : State) (u : Upd) (h : Nat) :
    (noteHandle s u h).pending = s.pending ∧ (noteHandle s u h).fuse = s.fuse := by simp [noteHandle]

@[simp] theorem applyUpdate_frame (s : State) (u : Upd) (r : Placed) :
    (applyUpdate s u r).pending = s.pending ∧ (applyUpdate s u r).fuse = s.fuse := by
  unfold applyUpdate
  dsimp only
  (repeat' split) <;> simp

@[simp] theorem queueDue_frame (s : State) :
    (queueDue s).pending = s.pending ∧ (queueDue s).fuse = s.fuse := by
  unfold queueDue
  (repeat' split) <;> simp

@[simp] theorem eccReads_frame (s : State) (reads : List Nat) (ecc : List (Nat × EccErr)) :
    (eccReads s reads ecc).pending = s.pending ∧ (eccReads s reads ecc).fuse = s.fuse := by simp [eccReads]

@[simp] theorem eccPath_frame (n : Nat) (s : State) (x : Entry) (ecc : List (Nat × EccErr)) :
    (eccPath n s x ecc).1.pending = s.pending ∧ (eccPath n s x ecc).1.fuse = s.fuse := by
  induction n generalizing s ecc with
  | zero => exact ⟨rfl, rfl⟩
  | succ n ih =>
    unfold eccPath
    dsimp only
    split <;> simp -implicitDefEqProofs [ih]

@[simp] theorem noteEarly_frame (s : State) (u : Upd) (r : Placed) :
    (noteEarly s u r).pending = s.pending ∧ (noteEarly s u r).fuse = s.fuse := by simp [noteEarly]

@[simp] theorem holdSteps_frame (s : State) (e : Nat) :
    (holdSteps s e).pending = s.pending ∧ (holdSteps s e).fuse = s.fuse := by simp [holdSteps]

@[simp] theorem loadName_frame (s : State) (k : Word) (sl : Slot) (i : Nat) (ecc : List (Nat × EccErr)) :
    (loadName s k sl i ecc).pending = s.pending ∧ (loadName s k sl i ecc).fuse = s.fuse := by
  unfold loadName
  dsimp only
  (repeat' split) <;> simp

@[simp] theorem beginScan_frame (s : State) (k : Word) (per : Nat) (items : List (List Word × Nat))
    (ecc : List (Nat × EccErr)) :
    (beginScan s k per items ecc).pending = s.pending ∧ (beginScan s k per items ecc).fuse = s.fuse :=
  by simp [beginScan]

@[simp] theorem scanEnd_frame (s : State) (k : Word) :
    (scanEnd s k).pending = s.pending ∧ (scanEnd s k).fuse = s.fuse := by
  unfold scanEnd
  split <;> simp

/-! Operations of Sys2Proof/Machine/Receiver.lean -/

@[simp] theorem updExch_frame (s : State) (q : Quad) (f : Exch → Exch) :
    (updExch s q f).pending = s.pending ∧ (updExch s q f).fuse = s.fuse := by simp [updExch]

@[simp] theorem clearChains_frame (s : State) (q : Quad) :
    (clearChains s q).pending = s.pending ∧ (clearChains s q).fuse = s.fuse := by simp [clearChains]

@[simp] theorem setGain_frame (s : State) (p : Port) (g : Nat) :
    (setGain s p g).pending = s.pending ∧ (setGain s p g).fuse = s.fuse := by simp [setGain]

@[simp] theorem manualGain_frame (s : State) (p : Port) :
    (manualGain s p).pending = s.pending ∧ (manualGain s p).fuse = s.fuse := by simp [manualGain]

@[simp] theorem frameEndWords_frame (s : State) (q : Quad) :
    (frameEndWords s q).pending = s.pending ∧ (frameEndWords s q).fuse = s.fuse := by simp [frameEndWords]

@[simp] theorem freezeGain_frame (s : State) (p : Port) :
    (freezeGain s p).pending = s.pending ∧ (freezeGain s p).fuse = s.fuse := by simp [freezeGain]

@[simp] theorem releaseGains_frame (s : State) (q : Quad) :
    (releaseGains s q).pending = s.pending ∧ (releaseGains s q).fuse = s.fuse := by simp [releaseGains]

@[simp] theorem endFinish_frame (s : State) (q : Quad) :
    (endFinish s q).pending = s.pending ∧ (endFinish s q).fuse = s.fuse := by simp [endFinish]

@[simp] theorem checkFinish_frame (s : State) (q : Quad) :
    (checkFinish s q).pending = s.pending ∧ (checkFinish s q).fuse = s.fuse := by
  unfold checkFinish
  split <;> simp

@[simp] theorem noteNoise_frame (s : State) (n : NoiseMeas) :
    (noteNoise s n).pending = s.pending ∧ (noteNoise s n).fuse = s.fuse := by simp [noteNoise]

@[simp] theorem beginHunt_frame (s : State) (q : Quad) (x : Exch) (noise : List NoiseMeas) :
    (beginHunt s q x noise).pending = s.pending ∧ (beginHunt s q x noise).fuse = s.fuse := by simp [beginHunt]

@[simp] theorem agcFree_frame (s : State) (p : Port) (rms raw : Ratio) :
    (agcFree s p rms raw).pending = s.pending ∧ (agcFree s p rms raw).fuse = s.fuse := by simp [agcFree]

@[simp] theorem offerStandby_frame (s : State) (p : Port) (x : Exch) (y : Cand) :
    (offerStandby s p x y).pending = s.pending ∧ (offerStandby s p x y).fuse = s.fuse := by
  unfold offerStandby
  split <;> simp

@[simp] theorem judgeCand_frame (s : State) (p : Port) (x : Exch) (c y : Cand) :
    (judgeCand s p x c y).pending = s.pending ∧ (judgeCand s p x c y).fuse = s.fuse := by simp [judgeCand]

@[simp] theorem takeLock_frame (s : State) (p : Port) (x : Exch) (y : Cand) :
    (takeLock s p x y).pending = s.pending ∧ (takeLock s p x y).fuse = s.fuse := by
  unfold takeLock
  split <;> simp

@[simp] theorem withRest_frame (s : State) (p : Port) (l : List Cx) :
    (withRest s p l).pending = s.pending ∧ (withRest s p l).fuse = s.fuse := by simp [withRest]

@[simp] theorem promote_frame (s : State) (p : Port) (x : Exch) :
    (promote s p x).pending = s.pending ∧ (promote s p x).fuse = s.fuse := by
  unfold promote
  split <;> simp

@[simp] theorem countFalse_frame (s : State) (p : Port) :
    (countFalse s p).pending = s.pending ∧ (countFalse s p).fuse = s.fuse := by simp [countFalse]

@[simp] theorem takeVerdict_frame (s : State) (p : Port) (x : Exch) (c : Cand) (e : Nat) (d : Decoded) :
    (takeVerdict s p x c e d).pending = s.pending ∧ (takeVerdict s p x c e d).fuse = s.fuse := by simp [takeVerdict]

@[simp] theorem noteTrack_frame (s : State) (p : Port) (w : Word) (snr : Nat) :
    (noteTrack s p w snr).pending = s.pending ∧ (noteTrack s p w snr).fuse = s.fuse := by simp [noteTrack]

@[simp] theorem closeExchange_frame (s : State) (q : Quad) (x : Exch) (o : Nat) :
    (closeExchange s q x o).pending = s.pending ∧ (closeExchange s q x o).fuse = s.fuse := by simp [closeExchange]

/-! Operations of Sys2Proof/Machine/Walk.lean -/

@[simp] theorem setJob_frame (s : State) (q : Quad) (j : Job) :
    (setJob s q j).pending = s.pending ∧ (setJob s q j).fuse = s.fuse := by simp [setJob]

@[simp] theorem planNext_frame (s : State) (q : Quad) (j : Job) (t ref : Nat) :
    (planNext s q j t ref).pending = s.pending ∧ (planNext s q j t ref).fuse = s.fuse := by simp [planNext]

@[simp] theorem planOver_frame (s : State) (q : Quad) (j : Job) (ref : Nat) :
    (planOver s q j ref).pending = s.pending ∧ (planOver s q j ref).fuse = s.fuse := by simp [planOver]

@[simp] theorem nextSt_frame (s : State) (q : Quad) (j : Job) (x : Exch) (step : AirStep) :
    (nextSt s q j x step).pending = s.pending ∧ (nextSt s q j x step).fuse = s.fuse := by simp [nextSt]

@[simp] theorem subtreeDone_frame (s : State) (q : Quad) (j : Job) (x : Exch) :
    (subtreeDone s q j x).pending = s.pending ∧ (subtreeDone s q j x).fuse = s.fuse := by
  unfold subtreeDone
  split <;> simp

@[simp] theorem ticketDone_frame (s : State) (q : Quad) (j : Job) (x : Exch) :
    (ticketDone s q j x).pending = s.pending ∧ (ticketDone s q j x).fuse = s.fuse := by
  unfold ticketDone
  split <;> simp

@[simp] theorem tagFound_frame (s : State) (q : Quad) (j : Job) (x : Exch) (f : VFrame) (n : Name) :
    (tagFound s q j x f n).pending = s.pending ∧ (tagFound s q j x f n).fuse = s.fuse := by simp [tagFound]

@[simp] theorem twinMet_frame (s : State) (q : Quad) (j : Job) (x : Exch) (ticket : List Bool) :
    (twinMet s q j x ticket).pending = s.pending ∧ (twinMet s q j x ticket).fuse = s.fuse := by simp [twinMet]

@[simp] theorem dropout_frame (s : State) (j : Job) :
    (dropout s j).pending = s.pending ∧ (dropout s j).fuse = s.fuse := by simp [dropout]

@[simp] theorem extend_frame (s : State) (q : Quad) (j : Job) (x : Exch) (b : Bool) :
    (extend s q j x b).pending = s.pending ∧ (extend s q j x b).fuse = s.fuse := by simp [extend]

@[simp] theorem nodeOutcome_frame (s : State) (q : Quad) (j : Job) (x : Exch) (b : BitOut) :
    (nodeOutcome s q j x b).pending = s.pending ∧ (nodeOutcome s q j x b).fuse = s.fuse := by
  unfold nodeOutcome
  dsimp only
  (repeat' split) <;> simp

@[simp] theorem earlyOutcome_frame (s : State) (q : Quad) (j : Job) (x : Exch) (pfx : List Bool) :
    (earlyOutcome s q j x pfx).pending = s.pending ∧ (earlyOutcome s q j x pfx).fuse = s.fuse := by
  unfold earlyOutcome
  split <;> simp

@[simp] theorem selectDone_frame (s : State) (q : Quad) (j : Job) (n : Name) (ticket : List Bool) :
    (selectDone s q j n ticket).pending = s.pending ∧ (selectDone s q j n ticket).fuse = s.fuse :=
  by simp [selectDone]

@[simp] theorem sel32Outcome_frame (s : State) (q : Quad) (j : Job) (x : Exch) (st : BitVec 8) (ticket : List Bool) :
    (sel32Outcome s q j x st ticket).pending = s.pending ∧ (sel32Outcome s q j x st ticket).fuse = s.fuse := by
  unfold sel32Outcome
  dsimp only
  (repeat' split) <;> simp

@[simp] theorem leaveAct_frame (s : State) (q : Quad) (j : Job) (o : Nat) (st : BitVec 8) (code : BitVec 16)
    (data : List Word) :
    (leaveAct s q j o st code data).pending = s.pending ∧ (leaveAct s q j o st code data).fuse = s.fuse := by
  unfold leaveAct
  split <;> simp

@[simp] theorem actionOutcome_frame (s : State) (q : Quad) (j : Job) (x : Exch) (o : Nat) (st : BitVec 8) :
    (actionOutcome s q j x o st).pending = s.pending ∧ (actionOutcome s q j x o st).fuse = s.fuse :=
  by simp [actionOutcome]

@[simp] theorem haltOutcome_frame (s : State) (q : Quad) (j : Job) (x : Exch) (st : BitVec 8) (n : Nat) :
    (haltOutcome s q j x st n).pending = s.pending ∧ (haltOutcome s q j x st n).fuse = s.fuse := by simp [haltOutcome]

@[simp] theorem reselectOutcome_frame (s : State) (q : Quad) (j : Job) (x : Exch) (st : BitVec 8) (n : Nat) :
    (reselectOutcome s q j x st n).pending = s.pending ∧ (reselectOutcome s q j x st n).fuse = s.fuse :=
  by simp [reselectOutcome]

@[simp] theorem oneOutcome_frame (s : State) (q : Quad) (j : Job) (x : Exch) (st : BitVec 8) :
    (oneOutcome s q j x st).pending = s.pending ∧ (oneOutcome s q j x st).fuse = s.fuse := by simp [oneOutcome]

@[simp] theorem prepareOutcome_frame (s : State) (q : Quad) (j : Job) (x : Exch) (st : BitVec 8) (n : Nat) :
    (prepareOutcome s q j x st n).pending = s.pending ∧ (prepareOutcome s q j x st n).fuse = s.fuse := by
  unfold prepareOutcome
  split <;> simp

@[simp] theorem commitOutcome_frame (s : State) (q : Quad) (j : Job) (x : Exch) (n : Nat) :
    (commitOutcome s q j x n).pending = s.pending ∧ (commitOutcome s q j x n).fuse = s.fuse := by
  unfold commitOutcome
  split <;> simp

@[simp] theorem stOutcome_frame (s : State) (q : Quad) (j : Job) (x : Exch) (o : Nat) (st : BitVec 8)
    (outs : List Word) :
    (stOutcome s q j x o st outs).pending = s.pending ∧ (stOutcome s q j x o st outs).fuse = s.fuse := by
  unfold stOutcome
  split <;> simp

/-! Operations of Sys2Proof/Machine/Slots.lean -/

@[simp] theorem nextIso_frame (s : State) (q : Quad) (j : Job) (x : Exch) (o : Nat) (step : AirStep) :
    (nextIso s q j x o step).pending = s.pending ∧ (nextIso s q j x o step).fuse = s.fuse := by simp [nextIso]

@[simp] theorem slotDone_frame (s : State) (q : Quad) (j : Job) (x : Exch) (o : Nat) (c : SlotClass) :
    (slotDone s q j x o c).pending = s.pending ∧ (slotDone s q j x o c).fuse = s.fuse := by simp [slotDone]

@[simp] theorem targetMiss_frame (s : State) (q : Quad) (j : Job) (x : Exch) (o : Nat) (c : SlotClass) :
    (targetMiss s q j x o c).pending = s.pending ∧ (targetMiss s q j x o c).fuse = s.fuse := by simp [targetMiss]

@[simp] theorem slotOver_frame (s : State) (q : Quad) (j : Job) (x : Exch) (o : Nat) (c : SlotClass) :
    (slotOver s q j x o c).pending = s.pending ∧ (slotOver s q j x o c).fuse = s.fuse := by simp [slotOver]

@[simp] theorem slotOutcome_frame (s : State) (q : Quad) (j : Job) (x : Exch) (o : Nat) (st : BitVec 8) :
    (slotOutcome s q j x o st).pending = s.pending ∧ (slotOutcome s q j x o st).fuse = s.fuse := by
  unfold slotOutcome
  split <;> simp

@[simp] theorem ackOutcome_frame (s : State) (q : Quad) (j : Job) (x : Exch) (o : Nat) (st : BitVec 8) (n : Nat) :
    (ackOutcome s q j x o st n).pending = s.pending ∧ (ackOutcome s q j x o st n).fuse = s.fuse := by
  unfold ackOutcome
  split <;> simp

@[simp] theorem accessFailed_frame (s : State) (q : Quad) (j : Job) (x : Exch) (o : Nat) (st : BitVec 8)
    (code : BitVec 16) :
    (accessFailed s q j x o st code).pending = s.pending ∧ (accessFailed s q j x o st code).fuse = s.fuse :=
  by simp [accessFailed]

@[simp] theorem opDone_frame (s : State) (q : Quad) (j : Job) (x : Exch) (o : Nat) (bs : List Bool) (half : Nat) :
    (opDone s q j x o bs half).pending = s.pending ∧ (opDone s q j x o bs half).fuse = s.fuse := by simp [opDone]

@[simp] theorem accessOutcome_frame (s : State) (q : Quad) (j : Job) (x : Exch) (o : Nat) (st : BitVec 8) :
    (accessOutcome s q j x o st).pending = s.pending ∧ (accessOutcome s q j x o st).fuse = s.fuse := by
  unfold accessOutcome
  (repeat' split) <;> simp

@[simp] theorem isoOutcome_frame (s : State) (q : Quad) (j : Job) (x : Exch) (o : Nat) (st : BitVec 8)
    (outs : List Word) :
    (isoOutcome s q j x o st outs).pending = s.pending ∧ (isoOutcome s q j x o st outs).fuse = s.fuse := by
  unfold isoOutcome
  split <;> simp

/-! Operations of Sys2Proof/Machine/Rounds.lean -/

@[simp] theorem markGroup_frame (s : State) (q : Quad) :
    (markGroup s q).pending = s.pending ∧ (markGroup s q).fuse = s.fuse := by simp [markGroup]

@[simp] theorem sendFrame_frame (s : State) (q : Quad) (j : Job) :
    (sendFrame s q j).pending = s.pending ∧ (sendFrame s q j).fuse = s.fuse := by simp [sendFrame]

@[simp] theorem takeRid_frame (s : State) (q : Quad) :
    (takeRid s q).1.pending = s.pending ∧ (takeRid s q).1.fuse = s.fuse := by simp [takeRid]

@[simp] theorem startRound_frame (s : State) (q : Quad) (j : Job) :
    (startRound s q j).pending = s.pending ∧ (startRound s q j).fuse = s.fuse := by
  unfold startRound
  split <;> simp

@[simp] theorem startDue_frame (s : State) (q : Quad) :
    (startDue s q).pending = s.pending ∧ (startDue s q).fuse = s.fuse := by
  unfold startDue
  split <;> simp

@[simp] theorem combine_frame (s : State) (q : Quad) (j : Job) (x : Exch) (taps : List (List PortTap)) (v : Nat) :
    (combine s q j x taps v).pending = s.pending ∧ (combine s q j x taps v).fuse = s.fuse := by simp [combine]

@[simp] theorem loadRotators_frame (s : State) (q : Quad) (b : Nat) :
    (loadRotators s q b).pending = s.pending ∧ (loadRotators s q b).fuse = s.fuse := by simp [loadRotators]

@[simp] theorem followRound_frame (s : State) (q : Quad) (j : Job) (ref : Nat) :
    (followRound s q j ref).pending = s.pending ∧ (followRound s q j ref).fuse = s.fuse := by
  unfold followRound
  split <;> simp

@[simp] theorem endRound_frame (s : State) (q : Quad) (j : Job) (ref : Nat) :
    (endRound s q j ref).pending = s.pending ∧ (endRound s q j ref).fuse = s.fuse := by
  unfold endRound
  dsimp only
  (repeat' split) <;> simp

/-! Operations of Sys2Proof/Machine/AirCmd.lean -/

@[simp] theorem setLink_frame (s : State) (q : Quad) (l : IsoLink) :
    (setLink s q l).pending = s.pending ∧ (setLink s q l).fuse = s.fuse := by simp [setLink]

@[simp] theorem startSeqs_frame (s : State) (k : Word) (m : Nat) (j : Job) (l : Option IsoLink) :
    (startSeqs s k m j l).pending = s.pending ∧ (startSeqs s k m j l).fuse = s.fuse := by
  unfold startSeqs
  split <;> simp

@[simp] theorem firstFrame_frame (s : State) (q : Quad) (j : Job) :
    (firstFrame s q j).pending = s.pending ∧ (firstFrame s q j).fuse = s.fuse := by
  simp only [firstFrame, State.updQuad_pending, State.updQuad_fuse]
  split <;> simp

@[simp] theorem undoSeq_frame (s : State) (q : Quad) :
    (undoSeq s q).pending = s.pending ∧ (undoSeq s q).fuse = s.fuse := by
  unfold undoSeq
  split <;> simp

@[simp] theorem seqCheck_frame (s : State) (k : Word) (_sl : Slot) :
    (seqCheck s k _sl).pending = s.pending ∧ (seqCheck s k _sl).fuse = s.fuse := by
  unfold seqCheck
  dsimp only
  (repeat' split) <;> simp

@[simp] theorem startAir_frame (s : State) (k : Word) (q : Quad) (j : Job) :
    (startAir s k q j).pending = s.pending ∧ (startAir s k q j).fuse = s.fuse := by simp [startAir]

@[simp] theorem startTarget_frame (s : State) (k : Word) (sl : Slot) :
    (startTarget s k sl).pending = s.pending ∧ (startTarget s k sl).fuse = s.fuse := by simp [startTarget]

/-! Operations of Sys2Proof/Machine/Gaps.lean -/

@[simp] theorem stepAbandon_frame (s : State) (q : Quad) :
    (stepAbandon s q).pending = s.pending ∧ (stepAbandon s q).fuse = s.fuse := by simp [stepAbandon]

@[simp] theorem gapWatch_frame (s : State) (q : Quad) :
    (gapWatch s q).pending = s.pending ∧ (gapWatch s q).fuse = s.fuse := by simp [gapWatch]

@[simp] theorem watchGaps_frame (s : State) :
    (watchGaps s).pending = s.pending ∧ (watchGaps s).fuse = s.fuse := by simp [watchGaps]

/-! Operations of Sys2Proof/Machine/Barker.lean -/

@[simp] theorem armMask_frame (s : State) (m : BitVec 16) :
    (armMask s m).pending = s.pending ∧ (armMask s m).fuse = s.fuse := by simp [armMask]

@[simp] theorem unyield_frame (s : State) :
    (unyield s).pending = s.pending ∧ (unyield s).fuse = s.fuse := by simp [unyield]

@[simp] theorem barkTurn_frame (s : State) :
    (barkTurn s).pending = s.pending ∧ (barkTurn s).fuse = s.fuse := by
  unfold barkTurn
  dsimp only
  (repeat' split) <;> simp

@[simp] theorem endBursts_frame (s : State) (q : Quad) :
    (endBursts s q).pending = s.pending ∧ (endBursts s q).fuse = s.fuse := by simp [endBursts]

@[simp] theorem barkRelease_frame (s : State) (q : Quad) :
    (barkRelease s q).pending = s.pending ∧ (barkRelease s q).fuse = s.fuse := by simp [barkRelease]

@[simp] theorem rampBursts_frame (s : State) :
    (rampBursts s).pending = s.pending ∧ (rampBursts s).fuse = s.fuse := by simp [rampBursts]

@[simp] theorem barkerArm_frame (s : State) (k : Word) (sl : Slot) :
    (barkerArm s k sl).pending = s.pending ∧ (barkerArm s k sl).fuse = s.fuse := by simp [barkerArm]

@[simp] theorem setBase_frame (s : State) (p : Port) (g : Gamma) :
    (setBase s p g).pending = s.pending ∧ (setBase s p g).fuse = s.fuse := by simp [setBase]

@[simp] theorem barkFires_frame (s : State) (p : Port) (e : Nat) :
    (barkFires s p e).pending = s.pending ∧ (barkFires s p e).fuse = s.fuse := by simp [barkFires]

@[simp] theorem compareBurst_frame (s : State) (p : Port) (e : Nat) (g : Gamma) :
    (compareBurst s p e g).pending = s.pending ∧ (compareBurst s p e g).fuse = s.fuse := by
  unfold compareBurst
  split <;> simp

/-! Operations of Sys2Proof/Machine/Juggler.lean -/

@[simp] theorem convert_frame (s : State) (q : Quad) (t : BitVec 16) :
    (convert s q t).pending = s.pending ∧ (convert s q t).fuse = s.fuse := by simp [convert]

@[simp] theorem jugPower_frame (s : State) (q : Quad) (step : Bool) :
    (jugPower s q step).pending = s.pending ∧ (jugPower s q step).fuse = s.fuse := by simp [jugPower]

@[simp] theorem stepOn_frame (s : State) (q : Quad) :
    (stepOn s q).pending = s.pending ∧ (stepOn s q).fuse = s.fuse := by simp [stepOn]

@[simp] theorem rxGood_frame (s : State) (p : Port) (img : Nat) :
    (rxGood s p img).pending = s.pending ∧ (rxGood s p img).fuse = s.fuse := by simp -implicitDefEqProofs [rxGood]

@[simp] theorem rxBad_frame (s : State) (q : Quad) (p : Port) :
    (rxBad s q p).pending = s.pending ∧ (rxBad s q p).fuse = s.fuse := by simp [rxBad]

@[simp] theorem rxJudge_frame (s : State) (q : Quad) (meas : List PortCal) (bad : BitVec 16) :
    (rxJudge s q meas bad).pending = s.pending ∧ (rxJudge s q meas bad).fuse = s.fuse := by simp [rxJudge]

@[simp] theorem stepDone_frame (s : State) (q : Quad) (n : Nat) (meas : List PortCal) :
    (stepDone s q n meas).pending = s.pending ∧ (stepDone s q n meas).fuse = s.fuse := by simp [stepDone]

@[simp] theorem antFault_frame (s : State) (p : Port) (ant : BitVec 8) :
    (antFault s p ant).pending = s.pending ∧ (antFault s p ant).fuse = s.fuse := by simp [antFault]

@[simp] theorem driftWatch_frame (s : State) (p : Port) (inc : BitVec 16) :
    (driftWatch s p inc).pending = s.pending ∧ (driftWatch s p inc).fuse = s.fuse := by simp [driftWatch]

@[simp] theorem faultWatch_frame (s : State) (p : Port) (d : DetMeas) :
    (faultWatch s p d).pending = s.pending ∧ (faultWatch s p d).fuse = s.fuse := by simp [faultWatch]

@[simp] theorem calTake_frame (s : State) (q : Quad) :
    (calTake s q).pending = s.pending ∧ (calTake s q).fuse = s.fuse := by simp [calTake]

@[simp] theorem calBegin_frame (s : State) (k : Word) (q : Quad) (meas : List (List PortCal)) :
    (calBegin s k q meas).pending = s.pending ∧ (calBegin s k q meas).fuse = s.fuse := by simp [calBegin]

@[simp] theorem calReply_frame (s : State) (k : Word) (ps : List Port) (good : Port → Bool) (w : Port → Word) :
    (calReply s k ps good w).pending = s.pending ∧ (calReply s k ps good w).fuse = s.fuse := by simp [calReply]

@[simp] theorem calStep_frame (s : State) (k : Word) (q : Quad) (n : Nat) (meas : List PortCal) :
    (calStep s k q n meas).pending = s.pending ∧ (calStep s k q n meas).fuse = s.fuse := by simp [calStep]

@[simp] theorem calTx_frame (s : State) (k : Word) (q : Quad) (meas : List PortCal) :
    (calTx s k q meas).pending = s.pending ∧ (calTx s k q meas).fuse = s.fuse := by simp [calTx]

@[simp] theorem loadPower_frame (s : State) (p : Port) (tset source : Nat) (codes : List (BitVec 16)) :
    (loadPower s p tset source codes).pending = s.pending ∧ (loadPower s p tset source codes).fuse = s.fuse :=
  by simp [loadPower]

@[simp] theorem loadOfs_frame (s : State) (p : Port) (phase gain txofs : Nat) :
    (loadOfs s p phase gain txofs).pending = s.pending ∧ (loadOfs s p phase gain txofs).fuse = s.fuse :=
  by simp [loadOfs]

@[simp] theorem calLoad_frame (s : State) (sl : Slot) :
    (calLoad s sl).pending = s.pending ∧ (calLoad s sl).fuse = s.fuse := by simp [calLoad]

/-! Operations of Sys2Proof/Machine/Memory.lean -/

@[simp] theorem endWait_frame (s : State) (k : Word) (w : Nat) (effs : List (Nat × Effect)) (body : List Word) :
    (endWait s k w effs body).pending = s.pending ∧ (endWait s k w effs body).fuse = s.fuse := by simp [endWait]

@[simp] theorem grantTo_frame (s : State) (r : BusReq) (g : Nat) :
    (grantTo s r g).pending = s.pending ∧ (grantTo s r g).fuse = s.fuse := by
  unfold grantTo
  dsimp only
  (repeat' split) <;> simp

@[simp] theorem grantBy_frame (s : State) (e : Nat) :
    (grantBy s e).pending = s.pending ∧ (grantBy s e).fuse = s.fuse := by
  unfold grantBy
  dsimp only
  (repeat' split) <;> simp

@[simp] theorem claimSpec_frame (s : State) (a : Nat) :
    (claimSpec s a).pending = s.pending ∧ (claimSpec s a).fuse = s.fuse := by simp [claimSpec]

@[simp] theorem demandLine_frame (s : State) (a t : Nat) :
    (demandLine s a t).pending = s.pending ∧ (demandLine s a t).fuse = s.fuse := by simp [demandLine]

@[simp] theorem setEngine_frame (s : State) (e : Engine) (g : EngSt) :
    (setEngine s e g).pending = s.pending ∧ (setEngine s e g).fuse = s.fuse := by
  unfold setEngine
  split <;> simp

@[simp] theorem useLine_frame (s : State) (a : Nat) :
    (useLine s a).pending = s.pending ∧ (useLine s a).fuse = s.fuse := by
  unfold useLine
  split <;> simp

@[simp] theorem takeRead_frame (s : State) (e : Engine) :
    (takeRead s e).pending = s.pending ∧ (takeRead s e).fuse = s.fuse := by
  unfold takeRead
  dsimp only
  (repeat' split) <;> simp

@[simp] theorem engineAsk_frame (s : State) (e : Engine) (t : Nat) :
    (engineAsk s e t).pending = s.pending ∧ (engineAsk s e t).fuse = s.fuse := by simp [engineAsk]

@[simp] theorem engineAskAll_frame (s : State) (t : Nat) :
    (engineAskAll s t).pending = s.pending ∧ (engineAskAll s t).fuse = s.fuse := by simp [engineAskAll]

@[simp] theorem engineStart_frame (s : State) (e : Engine) (a want t : Nat) :
    (engineStart s e a want t).pending = s.pending ∧ (engineStart s e a want t).fuse = s.fuse := by simp [engineStart]

@[simp] theorem commandAsk_frame (s : State) (r : BusReq) (t : Nat) :
    (commandAsk s r t).pending = s.pending ∧ (commandAsk s r t).fuse = s.fuse := by
  unfold commandAsk
  dsimp only
  (repeat' split) <;> simp

@[simp] theorem invalidate_frame (s : State) (t : Nat) :
    (invalidate s t).pending = s.pending ∧ (invalidate s t).fuse = s.fuse := by simp [invalidate]

@[simp] theorem freeBus_frame (s : State) (t : Nat) :
    (freeBus s t).pending = s.pending ∧ (freeBus s t).fuse = s.fuse := by simp [freeBus]

@[simp] theorem xferEnd_frame (s : State) (k : Word) (e : Nat) (miso : List Word) :
    (xferEnd s k e miso).pending = s.pending ∧ (xferEnd s k e miso).fuse = s.fuse := by
  unfold xferEnd
  split <;> simp

@[simp] theorem fillEnd_frame (s : State) (a : Nat) (data : List Byte) (e : Nat) :
    (fillEnd s a data e).pending = s.pending ∧ (fillEnd s a data e).fuse = s.fuse := by simp [fillEnd]

@[simp] theorem startSpec_frame (s : State) (a e : Nat) :
    (startSpec s a e).pending = s.pending ∧ (startSpec s a e).fuse = s.fuse := by simp [startSpec]

@[simp] theorem stretchOver_frame (s : State) (b e : Nat) :
    (stretchOver s b e).pending = s.pending ∧ (stretchOver s b e).fuse = s.fuse := by simp [stretchOver]

@[simp] theorem mpDone_frame (s : State) (sl : Slot) (e : Nat) :
    (mpDone s sl e).pending = s.pending ∧ (mpDone s sl e).fuse = s.fuse := by simp [mpDone]

@[simp] theorem stopTable_frame (s : State) (code : Nat) :
    (stopTable s code).pending = s.pending ∧ (stopTable s code).fuse = s.fuse := by simp [stopTable]

@[simp] theorem mpMap_frame (s : State) (sl : Slot) (e : Nat) :
    (mpMap s sl e).pending = s.pending ∧ (mpMap s sl e).fuse = s.fuse := by
  unfold mpMap
  dsimp only
  (repeat' split) <;> simp

/-! Operations of Sys2Proof/Machine/Patch.lean -/

@[simp] theorem patchRead_frame (s : State) (t : Nat) :
    (patchRead s t).pending = s.pending ∧ (patchRead s t).fuse = s.fuse := by
  unfold patchRead
  split <;> simp

@[simp] theorem imageRead_frame (s : State) (e : Engine) :
    (imageRead s e).pending = s.pending ∧ (imageRead s e).fuse = s.fuse := by
  unfold imageRead
  split <;> simp

@[simp] theorem noTable_frame (s : State) :
    (noTable s).pending = s.pending ∧ (noTable s).fuse = s.fuse := by simp [noTable]

@[simp] theorem applyRecord_frame (s : State) (bs : List Byte) :
    (applyRecord s bs).pending = s.pending ∧ (applyRecord s bs).fuse = s.fuse := by
  unfold applyRecord
  dsimp only
  (repeat' split) <;> simp

@[simp] theorem takeRecord_frame (s : State) (bs : List Byte) :
    (takeRecord s bs).pending = s.pending ∧ (takeRecord s bs).fuse = s.fuse := by simp [takeRecord]

@[simp] theorem endTable_frame (s : State) :
    (endTable s).pending = s.pending ∧ (endTable s).fuse = s.fuse := by simp [endTable]

@[simp] theorem tableNext_frame (s : State) (g : EngSt) (t : Nat) :
    (tableNext s g t).pending = s.pending ∧ (tableNext s g t).fuse = s.fuse := by simp [tableNext]

@[simp] theorem tableRead_frame (s : State) :
    (tableRead s).pending = s.pending ∧ (tableRead s).fuse = s.fuse := by
  unfold tableRead
  dsimp only
  (repeat' split) <;> simp

@[simp] theorem setInactive_frame (s : State) (i : Option Image) :
    (setInactive s i).pending = s.pending ∧ (setInactive s i).fuse = s.fuse := by simp [setInactive]

@[simp] theorem patchDone_frame (s : State) (k : Word) :
    (patchDone s k).pending = s.pending ∧ (patchDone s k).fuse = s.fuse := by
  unfold patchDone
  dsimp only
  (repeat' split) <;> simp

@[simp] theorem swapBanks_frame (s : State) (t : Nat) :
    (swapBanks s t).pending = s.pending ∧ (swapBanks s t).fuse = s.fuse := by
  unfold swapBanks
  refine each_frame (s := { s with patch := _ }) fun q u => ?_
  split
  · split <;> simp
  · simp

/-! Operations of Sys2Proof/Machine/Journal.lean -/

@[simp] theorem journalSet_frame (s : State) (k : Word) (sl : Slot) (setting : Nat) :
    (journalSet s k sl setting).pending = s.pending ∧ (journalSet s k sl setting).fuse = s.fuse :=
  by simp [journalSet]

@[simp] theorem settingTakes_frame (s : State) (setting : Nat) (v : Word) :
    (settingTakes s setting v).pending = s.pending ∧ (settingTakes s setting v).fuse = s.fuse :=
  by simp [settingTakes]

/-! Operations of Sys2Proof/Machine/Boot.lean -/

@[simp] theorem loadTxph_frame (s : State) :
    (loadTxph s).pending = s.pending ∧ (loadTxph s).fuse = s.fuse := each_frame fun p t => by split <;> simp

@[simp] theorem bootLast_frame (s : State) (t : Nat) :
    (bootLast s t).pending = s.pending ∧ (bootLast s t).fuse = s.fuse := by simp [bootLast]

@[simp] theorem headerMap_frame (s : State) (bs : List Byte) :
    (headerMap s bs).pending = s.pending ∧ (headerMap s bs).fuse = s.fuse := by simp [headerMap]

@[simp] theorem judgeHeader_frame (s : State) (bs : List Byte) (t : Nat) :
    (judgeHeader s bs t).pending = s.pending ∧ (judgeHeader s bs t).fuse = s.fuse := by
  unfold judgeHeader
  dsimp only
  (repeat' split) <;> simp

@[simp] theorem dropWait_frame (s : State) (sl : Slot) :
    (dropWait s sl).pending = s.pending ∧ (dropWait s sl).fuse = s.fuse := by
  unfold dropWait
  dsimp only
  (repeat' split) <;> simp

@[simp] theorem commandWedged_frame (s : State) (k : Stamp) :
    (commandWedged s k).pending = s.pending ∧ (commandWedged s k).fuse = s.fuse := by
  unfold commandWedged
  split <;> simp

@[simp] theorem tableWedged_frame (s : State) :
    (tableWedged s).pending = s.pending ∧ (tableWedged s).fuse = s.fuse := by simp [tableWedged]

@[simp] theorem directoryWedged_frame (s : State) :
    (directoryWedged s).pending = s.pending ∧ (directoryWedged s).fuse = s.fuse := by
  unfold directoryWedged
  split <;> simp

@[simp] theorem jugglerWedged_frame (s : State) (q : Quad) :
    (jugglerWedged s q).pending = s.pending ∧ (jugglerWedged s q).fuse = s.fuse := by
  unfold jugglerWedged
  split <;> simp

/-! Operations of Sys2Proof/Machine/RegCmd.lean -/

@[simp] theorem regWriteAll_frame (s : State) (sl : Slot) :
    (regWriteAll s sl).pending = s.pending ∧ (regWriteAll s sl).fuse = s.fuse := by simp [regWriteAll]

@[simp] theorem regWriteCheck_frame (s : State) (k : Word) (sl : Slot) :
    (regWriteCheck s k sl).pending = s.pending ∧ (regWriteCheck s k sl).fuse = s.fuse := by
  unfold regWriteCheck
  split <;> simp

@[simp] theorem regModifyAll_frame (s : State) (sl : Slot) :
    (regModifyAll s sl).1.pending = s.pending ∧ (regModifyAll s sl).1.fuse = s.fuse := by
  unfold regModifyAll
  dsimp only
  (repeat' split) <;> simp

@[simp] theorem regModifyCheck_frame (s : State) (k : Word) (sl : Slot) :
    (regModifyCheck s k sl).pending = s.pending ∧ (regModifyCheck s k sl).fuse = s.fuse := by
  unfold regModifyCheck
  split <;> simp

/-! Operations of Sys2Proof/Machine/Effects.lean -/

@[simp] theorem dueCheck_frame (s : State) (k : Word) (sl : Slot) :
    (dueCheck s k sl).pending = s.pending ∧ (dueCheck s k sl).fuse = s.fuse := by simp [dueCheck]

@[simp] theorem regModifyDone_frame (s : State) (k : Word) (sl : Slot) :
    (regModifyDone s k sl).pending = s.pending ∧ (regModifyDone s k sl).fuse = s.fuse := by simp [regModifyDone]

/-- Every owed effect but a full reset. -/
theorem doEffect_frame (s : State) (k : Word) (sl : Slot) (t : Nat) {e : Effect} (he : e ≠ .fullReset) :
    (doEffect s k sl t e).pending = s.pending ∧ (doEffect s k sl t e).fuse = s.fuse := by
  cases e <;> simp [doEffect] at he ⊢

@[simp] theorem afterCommand_frame (s : State) (sl : Slot) :
    (afterCommand s sl).pending = s.pending ∧ (afterCommand s sl).fuse = s.fuse := by simp [afterCommand]

@[simp] theorem finishCommand_frame (s : State) (k : Word) (sl : Slot) (t : Nat) :
    (finishCommand s k sl t).pending = s.pending ∧ (finishCommand s k sl t).fuse = s.fuse := by
  unfold finishCommand
  dsimp only
  (repeat' split) <;> simp

/-! Operations of Sys2Proof/Machine/HostLink.lean -/

@[simp] theorem rise_frame (s : State) (h : HostPort) (nbits : Nat) :
    (rise s h nbits).pending = s.pending ∧ (rise s h nbits).fuse = s.fuse := by simp [rise]

/-! Operations of Sys2Proof/Machine/Midway.lean -/

@[simp] theorem regTasks_frame (s : State) (n m : Nat) (t : Nat → MwTask) :
    (regTasks s n m t).pending = s.pending ∧ (regTasks s n m t).fuse = s.fuse := by simp [regTasks]

@[simp] theorem dropEdge_frame (s : State) (n : BallNo) (e : Nat) :
    (dropEdge s n e).pending = s.pending ∧ (dropEdge s n e).fuse = s.fuse := by simp [dropEdge]

/-! Operations of Sys2Proof/Machine/Time.lean -/

@[simp] theorem edgeSeen_frame (s : State) (x : Nat × Bool × Nat) :
    (edgeSeen s x).pending = s.pending ∧ (edgeSeen s x).fuse = s.fuse := by simp [edgeSeen]

@[simp] theorem edgesBefore_frame (s : State) (e : Nat) :
    (edgesBefore s e).pending = s.pending ∧ (edgesBefore s e).fuse = s.fuse := by simp [edgesBefore]

@[simp] theorem edgesDue_frame (s : State) :
    (edgesDue s).pending = s.pending ∧ (edgesDue s).fuse = s.fuse := by simp [edgesDue]

@[simp] theorem passTo_frame (s : State) (e : Nat) :
    (passTo s e).pending = s.pending ∧ (passTo s e).fuse = s.fuse := by simp [passTo]

@[simp] theorem nextTick_frame (s : State) :
    (nextTick s).pending = s.pending ∧ (nextTick s).fuse = s.fuse := by simp [nextTick]

/-! ## The rows -/

/-- A row answers a next state, with the queue of waiting commands and the fuses as in `s`. -/
def FrameKept (s : State) (o : Host.Outcome State Fault Refusal) : Prop :=
  ∃ t, o = .next t ∧ t.pending = s.pending ∧ t.fuse = s.fuse

theorem frameKept_next {s t : State} (h : t.pending = s.pending ∧ t.fuse = s.fuse) : FrameKept s (.next t) :=
  ⟨t, rfl, h⟩

/-! Rows of Sys2Proof/Machine/Geometry.lean -/

theorem execGeomApply_frame (s : State) : FrameKept s (execGeomApply s) :=
  frameKept_next (by simp)

/-! Rows of Sys2Proof/Machine/Crc.lean -/

theorem execCuStart_frame (u : CrcUnit) (s : State) : FrameKept s (execCuStart u s) :=
  frameKept_next (by simp)

theorem execCuCheck_frame (u : CrcUnit) (v : Word) (s : State) : FrameKept s (execCuCheck u v s) :=
  frameKept_next (by simp)

theorem execCuDataWindow_frame (u : CrcUnit) (vals : List Word) (s : State) :
    FrameKept s (execCuDataWindow u vals s) :=
  frameKept_next (by simp)

/-! Rows of Sys2Proof/Machine/Window.lean -/

theorem execRclReadClear_frame (h : HostPort) (addr : BitVec 16) (s : State) :
    FrameKept s (execRclReadClear h addr s) :=
  frameKept_next (by simp)

theorem execRegisterWrite_frame (h : HostPort) (addr : BitVec 16) (v : Word) (s : State) :
    FrameKept s (execRegisterWrite h addr v s) :=
  frameKept_next (by simp)

/-! Rows of Sys2Proof/Machine/SysCmd.lean -/

theorem execNop_frame (k : Stamp) (s : State) : FrameKept s (execNop k s) :=
  frameKept_next (attempt_frame fun t sl => by simp)

theorem execGetCaps_frame (k : Stamp) (s : State) : FrameKept s (execGetCaps k s) :=
  frameKept_next (attempt_frame fun t sl => by simp)

theorem execGetStatus_frame (k : Stamp) (s : State) : FrameKept s (execGetStatus k s) :=
  frameKept_next (attempt_frame fun t sl => by simp)

theorem execSnapshot_frame (k : Stamp) (s : State) : FrameKept s (execSnapshot k s) :=
  frameKept_next (attempt_frame fun t sl => by simp)

theorem execLease_frame (k : Stamp) (s : State) : FrameKept s (execLease k s) :=
  frameKept_next (attempt_frame fun t sl => by simp)

theorem execUnlease_frame (k : Stamp) (s : State) : FrameKept s (execUnlease k s) :=
  frameKept_next (attempt_frame fun t sl => by simp)

theorem execResetDevice_frame (k : Stamp) (s : State) : FrameKept s (execResetDevice k s) :=
  frameKept_next (attempt_frame fun t sl => by simp)

theorem execUnassignedOpcode_frame (k : Stamp) (s : State) : FrameKept s (execUnassignedOpcode k s) :=
  frameKept_next (attempt_frame fun t sl => by simp)

theorem execCarouselEntry_frame (s : State) : FrameKept s (execCarouselEntry s) :=
  frameKept_next (by split <;> simp)

theorem execTurnedAway_frame (s : State) : FrameKept s (execTurnedAway s) :=
  frameKept_next (by split <;> simp)

theorem execReplyQueued_frame (k : Stamp) (s : State) : FrameKept s (execReplyQueued k s) :=
  frameKept_next (by split <;> simp)

theorem execCommandUnitResume_frame (k : Stamp) (s : State) : FrameKept s (execCommandUnitResume k s) :=
  frameKept_next (by split <;> simp)

/-! Rows of Sys2Proof/Machine/RadioCmd.lean -/

theorem execSynthSet_frame (k : Stamp) (s : State) : FrameKept s (execSynthSet k s) :=
  frameKept_next (attempt_frame fun t sl => by simp)

theorem execSynthCal_frame (k : Stamp) (s : State) : FrameKept s (execSynthCal k s) :=
  frameKept_next (attempt_frame fun t sl => by simp)

theorem execFieldOn_frame (k : Stamp) (s : State) : FrameKept s (execFieldOn k s) :=
  frameKept_next (attempt_frame fun t sl => by simp)

theorem execFieldOff_frame (k : Stamp) (s : State) : FrameKept s (execFieldOff k s) :=
  frameKept_next (attempt_frame fun t sl => by simp)

theorem execPowerSet_frame (k : Stamp) (s : State) : FrameKept s (execPowerSet k s) :=
  frameKept_next (attempt_frame fun t sl => by simp)

theorem execTunePort_frame (k : Stamp) (meas : List TuneMeas) (s : State) : FrameKept s (execTunePort k meas s) :=
  frameKept_next (attempt_frame fun t sl => by simp)

theorem execBeamLoad_frame (k : Stamp) (s : State) : FrameKept s (execBeamLoad k s) :=
  frameKept_next (attempt_frame fun t sl => by simp)

theorem execBeamSelect_frame (k : Stamp) (s : State) : FrameKept s (execBeamSelect k s) :=
  frameKept_next (attempt_frame fun t sl => by simp)

theorem execRingMode_frame (k : Stamp) (s : State) : FrameKept s (execRingMode k s) :=
  frameKept_next (attempt_frame fun t sl => by simp)

theorem execTokenRefresh_frame (q : Quad) (s : State) : FrameKept s (execTokenRefresh q s) :=
  frameKept_next (by simp)

theorem execRingLost_frame (q : Quad) (s : State) : FrameKept s (execRingLost q s) :=
  frameKept_next (by simp)

theorem execLockDeclared_frame (q : Quad) (s : State) : FrameKept s (execLockDeclared q s) :=
  frameKept_next (by split <;> simp)

theorem execLockTo_frame (q : Quad) (s : State) : FrameKept s (execLockTo q s) :=
  frameKept_next (by split <;> simp)

theorem execSynUnlock_frame (q : Quad) (s : State) : FrameKept s (execSynUnlock q s) :=
  frameKept_next (by simp)

theorem execBandCalComplete_frame (q : Quad) (band : BitVec 6) (s : State) :
    FrameKept s (execBandCalComplete q band s) :=
  frameKept_next (by split <;> simp)

theorem execFieldCut_frame (q : Quad) (s : State) : FrameKept s (execFieldCut q s) :=
  frameKept_next (by split <;> simp)

theorem execRampDownComplete_frame (q : Quad) (s : State) : FrameKept s (execRampDownComplete q s) :=
  frameKept_next (by simp)

/-! Rows of Sys2Proof/Machine/Directory.lean -/

theorem execBearingFit_frame (s : State) : FrameKept s (execBearingFit s) :=
  frameKept_next (by split <;> simp)

theorem execDirectoryStep_frame (ecc : List (Nat × EccErr)) (s : State) : FrameKept s (execDirectoryStep ecc s) :=
  frameKept_next (by split <;> simp)

theorem execActionRecord_frame (q : Quad) (s : State) : FrameKept s (execActionRecord q s) :=
  frameKept_next (by split <;> simp)

theorem execDirScrub_frame (bucket : Nat) (err : EccErr) (s : State) : FrameKept s (execDirScrub bucket err s) :=
  frameKept_next (by simp)

theorem execDirLookup_frame (k : Stamp) (ecc : List (Nat × EccErr)) (s : State) :
    FrameKept s (execDirLookup k ecc s) :=
  frameKept_next (attempt_frame fun t sl => by simp)

theorem execDirClear_frame (k : Stamp) (s : State) : FrameKept s (execDirClear k s) :=
  frameKept_next (attempt_frame fun t sl => by simp)

theorem execDirLoad_frame (k : Stamp) (ecc : List (Nat × EccErr)) (s : State) : FrameKept s (execDirLoad k ecc s) :=
  frameKept_next (attempt_frame fun t sl => by simp)

theorem execDirStats_frame (k : Stamp) (s : State) : FrameKept s (execDirStats k s) :=
  frameKept_next (attempt_frame fun t sl => by simp)

theorem execDirStream_frame (k : Stamp) (ecc : List (Nat × EccErr)) (s : State) :
    FrameKept s (execDirStream k ecc s) :=
  frameKept_next (attempt_frame fun t sl => by simp)

theorem execDirMissing_frame (k : Stamp) (ecc : List (Nat × EccErr)) (s : State) :
    FrameKept s (execDirMissing k ecc s) :=
  frameKept_next (attempt_frame fun t sl => by simp)

theorem execScanUnitQueue_frame (s : State) : FrameKept s (execScanUnitQueue s) := by
  refine frameKept_next ?_
  (repeat' split) <;> simp

/-! Rows of Sys2Proof/Machine/Receiver.lean -/

theorem execNoisePhaseStart_frame (q : Quad) (s : State) : FrameKept s (execNoisePhaseStart q s) :=
  frameKept_next (by split <;> simp)

theorem execHuntStart_frame (q : Quad) (noise : List NoiseMeas) (s : State) :
    FrameKept s (execHuntStart q noise s) :=
  frameKept_next (by split <;> simp)

theorem execNoReplyDeadline_frame (q : Quad) (s : State) : FrameKept s (execNoReplyDeadline q s) :=
  frameKept_next (by split <;> simp)

theorem execAgcBlock_frame (p : Port) (samples : List Cx) (s : State) : FrameKept s (execAgcBlock p samples s) := by
  refine frameKept_next ?_
  dsimp only
  (repeat' split) <;> simp

theorem execRfcUpdate_frame (p : Port) (e : Cx) (s : State) : FrameKept s (execRfcUpdate p e s) :=
  frameKept_next (by simp)

theorem execRfcSat_frame (p : Port) (s : State) : FrameKept s (execRfcSat p s) :=
  frameKept_next (by simp)

theorem execOverload_frame (p : Port) (dbm : Int) (s : State) : FrameKept s (execOverload p dbm s) :=
  frameKept_next (by split <;> simp)

theorem execPreambleLock_frame (p : Port) (tz : Bool) (v : LockMeas) (s : State) :
    FrameKept s (execPreambleLock p tz v s) := by
  refine frameKept_next ?_
  (repeat' split) <;> simp

theorem execSyncDeclaration_frame (p : Port) (tz : Bool) (s : State) : FrameKept s (execSyncDeclaration p tz s) := by
  refine frameKept_next ?_
  dsimp only
  (repeat' split) <;> simp

theorem execFalseStart_frame (p : Port) (tz : Bool) (s : State) : FrameKept s (execFalseStart p tz s) :=
  frameKept_next (by split <;> simp)

theorem execPilotQualityAbort_frame (p : Port) (s : State) : FrameKept s (execPilotQualityAbort p s) := by
  refine frameKept_next ?_
  (repeat' split) <;> simp

theorem execPortCrcVerdict_frame (p : Port) (rx : RxInput) (s : State) : FrameKept s (execPortCrcVerdict p rx s) := by
  refine frameKept_next ?_
  (repeat' split) <;> simp

theorem execBitReplyOutcome_frame (q : Quad) (s : State) : FrameKept s (execBitReplyOutcome q s) :=
  frameKept_next (by split <;> simp)

/-! Rows of Sys2Proof/Machine/Rounds.lean -/

theorem execRoundStart_frame (q : Quad) (s : State) : FrameKept s (execRoundStart q s) :=
  frameKept_next (by simp)

theorem execStametFrameSend_frame (q : Quad) (s : State) : FrameKept s (execStametFrameSend q s) :=
  frameKept_next (by split <;> simp)

theorem execIsoFrameSend_frame (q : Quad) (s : State) : FrameKept s (execIsoFrameSend q s) :=
  frameKept_next (by split <;> simp)

theorem execFrameEnd_frame (q : Quad) (s : State) : FrameKept s (execFrameEnd q s) :=
  frameKept_next (by split <;> simp)

theorem execCombinedVerdict_frame (q : Quad) (taps : List (List PortTap)) (s : State) :
    FrameKept s (execCombinedVerdict q taps s) := by
  refine frameKept_next ?_
  (repeat' split) <;> simp

theorem execExchangeOutcome_frame (q : Quad) (s : State) : FrameKept s (execExchangeOutcome q s) := by
  refine frameKept_next ?_
  split
  · dsimp only
    split <;> simp
  · simp

theorem execDwellExpire_frame (q : Quad) (s : State) : FrameKept s (execDwellExpire q s) :=
  frameKept_next (by split <;> simp)

theorem execRoundEnd_frame (q : Quad) (s : State) : FrameKept s (execRoundEnd q s) :=
  frameKept_next (by split <;> simp)

/-! Rows of Sys2Proof/Machine/AirCmd.lean -/

theorem execStRound_frame (k : Stamp) (s : State) : FrameKept s (execStRound k s) :=
  frameKept_next (attempt_frame fun t sl => by simp)

theorem execGInventory_frame (k : Stamp) (s : State) : FrameKept s (execGInventory k s) :=
  frameKept_next (attempt_frame fun t sl => by simp)

theorem execStSelect_frame (k : Stamp) (s : State) : FrameKept s (execStSelect k s) :=
  frameKept_next (attempt_frame fun t sl => by simp)

theorem execStRead_frame (k : Stamp) (s : State) : FrameKept s (execStRead k s) :=
  frameKept_next (attempt_frame fun t sl => by simp)

theorem execStWrite_frame (k : Stamp) (s : State) : FrameKept s (execStWrite k s) :=
  frameKept_next (attempt_frame fun t sl => by simp)

theorem execStHalt_frame (k : Stamp) (s : State) : FrameKept s (execStHalt k s) :=
  frameKept_next (attempt_frame fun t sl => by simp)

theorem execStSense_frame (k : Stamp) (s : State) : FrameKept s (execStSense k s) :=
  frameKept_next (attempt_frame fun t sl => by simp)

theorem execStRaw_frame (k : Stamp) (s : State) : FrameKept s (execStRaw k s) :=
  frameKept_next (attempt_frame fun t sl => by simp)

theorem execGRead_frame (k : Stamp) (s : State) : FrameKept s (execGRead k s) :=
  frameKept_next (attempt_frame fun t sl => by simp)

theorem execGWrite_frame (k : Stamp) (s : State) : FrameKept s (execGWrite k s) :=
  frameKept_next (attempt_frame fun t sl => by simp)

theorem execGLock_frame (k : Stamp) (s : State) : FrameKept s (execGLock k s) :=
  frameKept_next (attempt_frame fun t sl => by simp)

theorem execGKill_frame (k : Stamp) (s : State) : FrameKept s (execGKill k s) :=
  frameKept_next (attempt_frame fun t sl => by simp)

theorem execGRaw_frame (k : Stamp) (s : State) : FrameKept s (execGRaw k s) :=
  frameKept_next (attempt_frame fun t sl => by simp)

/-! Rows of Sys2Proof/Machine/Barker.lean -/

theorem execBarkerArm_frame (k : Stamp) (s : State) : FrameKept s (execBarkerArm k s) :=
  frameKept_next (attempt_frame fun t sl => by simp)

theorem execBarkerSynPowerup_frame (q : Quad) (s : State) : FrameKept s (execBarkerSynPowerup q s) :=
  frameKept_next (by simp)

theorem execBarkerSlot_frame (p : Port) (s : State) : FrameKept s (execBarkerSlot p s) :=
  frameKept_next (by simp)

theorem execBarkerCompare_frame (p : Port) (gi gq : Int) (rl : Nat) (phase : BitVec 8) (s : State) :
    FrameKept s (execBarkerCompare p gi gq rl phase s) :=
  frameKept_next (by split <;> simp)

theorem execBarkerSlotEnd_frame (q : Quad) (s : State) : FrameKept s (execBarkerSlotEnd q s) :=
  frameKept_next (by simp)

/-! Rows of Sys2Proof/Machine/Juggler.lean -/

theorem execQuadTempConversion_frame (t0 t1 t2 t3 : BitVec 16) (s : State) :
    FrameKept s (execQuadTempConversion t0 t1 t2 t3 s) :=
  frameKept_next (by simp)

theorem execJugglerBandCal_frame (q : Quad) (s : State) : FrameKept s (execJugglerBandCal q s) :=
  frameKept_next (by simp)

theorem execReceiveStepStart_frame (q : Quad) (s : State) : FrameKept s (execReceiveStepStart q s) :=
  frameKept_next (by simp)

theorem execReceiveStepEnd_frame (q : Quad) (meas : List PortCal) (s : State) :
    FrameKept s (execReceiveStepEnd q meas s) :=
  frameKept_next (by split <;> simp)

theorem execReceiveSequenceExpiry_frame (q : Quad) (s : State) : FrameKept s (execReceiveSequenceExpiry q s) :=
  frameKept_next (by simp)

theorem execRxRetryWaitExpiry_frame (q : Quad) (s : State) : FrameKept s (execRxRetryWaitExpiry q s) :=
  frameKept_next (by simp)

theorem execDetectorReading_frame (p : Port) (d : DetMeas) (s : State) : FrameKept s (execDetectorReading p d s) :=
  frameKept_next (by simp)

theorem execCalRun_frame (k : Stamp) (meas : List (List PortCal)) (s : State) : FrameKept s (execCalRun k meas s) :=
  frameKept_next (attempt_frame fun t sl => by simp)

theorem execCalLoadSet_frame (k : Stamp) (s : State) : FrameKept s (execCalLoadSet k s) :=
  frameKept_next (attempt_frame fun t sl => by simp)

theorem execCalRead_frame (k : Stamp) (s : State) : FrameKept s (execCalRead k s) :=
  frameKept_next (attempt_frame fun t sl => by simp)

/-! Rows of Sys2Proof/Machine/Memory.lean -/

theorem execMpBusGrant_frame (s : State) : FrameKept s (execMpBusGrant s) :=
  frameKept_next (by simp)

theorem execMpTransferEnd_frame (miso : List Word) (s : State) : FrameKept s (execMpTransferEnd miso s) :=
  frameKept_next (by split <;> simp)

theorem execLineFillEnd_frame (data : List Byte) (s : State) : FrameKept s (execLineFillEnd data s) :=
  frameKept_next (by split <;> simp)

theorem execMreadyResume_frame (high : Bool) (s : State) : FrameKept s (execMreadyResume high s) :=
  frameKept_next (by split <;> simp)

theorem execMreadyTimeout_frame (s : State) : FrameKept s (execMreadyTimeout s) :=
  frameKept_next (by split <;> simp)

theorem execMpXfer_frame (k : Stamp) (s : State) : FrameKept s (execMpXfer k s) :=
  frameKept_next (attempt_frame fun t sl => by simp)

theorem execMpMap_frame (k : Stamp) (s : State) : FrameKept s (execMpMap k s) :=
  frameKept_next (attempt_frame fun t sl => by simp)

/-! Rows of Sys2Proof/Machine/Patch.lean -/

theorem execXipRead_frame (e : Engine) (s : State) : FrameKept s (execXipRead e s) :=
  frameKept_next (by split <;> simp)

theorem execCalTableLoad_frame (s : State) : FrameKept s (execCalTableLoad s) :=
  frameKept_next (by split <;> simp)

theorem execPatchLoad_frame (k : Stamp) (s : State) : FrameKept s (execPatchLoad k s) :=
  frameKept_next (attempt_frame fun t sl => by simp)

theorem execPatchSwap_frame (k : Stamp) (s : State) : FrameKept s (execPatchSwap k s) :=
  frameKept_next (attempt_frame fun t sl => by simp)

theorem execPatchSwapExecute_frame (s : State) : FrameKept s (execPatchSwapExecute s) :=
  frameKept_next (by split <;> simp)

/-! Rows of Sys2Proof/Machine/Journal.lean -/

theorem execJournalRead_frame (k : Stamp) (s : State) : FrameKept s (execJournalRead k s) :=
  frameKept_next (attempt_frame fun t sl => by simp)

theorem execRegionSet_frame (k : Stamp) (s : State) : FrameKept s (execRegionSet k s) :=
  frameKept_next (attempt_frame fun t sl => by simp)

theorem execCeilingSet_frame (k : Stamp) (s : State) : FrameKept s (execCeilingSet k s) :=
  frameKept_next (attempt_frame fun t sl => by simp)

theorem execRoleSet_frame (k : Stamp) (s : State) : FrameKept s (execRoleSet k s) :=
  frameKept_next (attempt_frame fun t sl => by simp)

/-! Rows of Sys2Proof/Machine/Boot.lean -/

theorem execResetRelease_frame (bootSrc : Bool) (hrole : BitVec 2) (s : State) :
    FrameKept s (execResetRelease bootSrc hrole s) :=
  frameKept_next (by simp)

theorem execRootPllLock_frame (s : State) : FrameKept s (execRootPllLock s) :=
  frameKept_next (by simp)

theorem execFuseLoad_frame (s : State) : FrameKept s (execFuseLoad s) :=
  frameKept_next (by simp)

theorem execScrubComplete_frame (s : State) : FrameKept s (execScrubComplete s) :=
  frameKept_next (by simp)

theorem execBootHeaderCheck_frame (s : State) : FrameKept s (execBootHeaderCheck s) :=
  frameKept_next (by split <;> simp)

theorem execBootPatchInstall_frame (s : State) : FrameKept s (execBootPatchInstall s) :=
  frameKept_next (by simp)

theorem execReadyRise_frame (s : State) : FrameKept s (execReadyRise s) :=
  frameKept_next (by simp)

theorem execWatchdogTimeout_frame (w : Watched) (s : State) : FrameKept s (execWatchdogTimeout w s) :=
  frameKept_next (by split <;> simp)

/-! Rows of Sys2Proof/Machine/RegCmd.lean -/

theorem execRegRead_frame (k : Stamp) (s : State) : FrameKept s (execRegRead k s) :=
  frameKept_next (attempt_frame fun t sl => by simp)

theorem execRegWrite_frame (k : Stamp) (s : State) : FrameKept s (execRegWrite k s) :=
  frameKept_next (attempt_frame fun t sl => by simp)

theorem execRegModify_frame (k : Stamp) (s : State) : FrameKept s (execRegModify k s) :=
  frameKept_next (attempt_frame fun t sl => by simp)

/-! Rows of Sys2Proof/Machine/HostLink.lean -/

theorem execSelnFall_frame (h : HostPort) (sck : Bool) (s : State) : FrameKept s (execSelnFall h sck s) :=
  frameKept_next (by simp)

theorem execWord0Complete_frame (h : HostPort) (w0 : Word) (s : State) : FrameKept s (execWord0Complete h w0 s) :=
  frameKept_next (by simp)

theorem execDrain_frame (h : HostPort) (nbits : Nat) (s : State) : FrameKept s (execDrain h nbits s) :=
  frameKept_next (by simp)

theorem execReplay_frame (h : HostPort) (nbits : Nat) (s : State) : FrameKept s (execReplay h nbits s) :=
  frameKept_next (by simp)

theorem execCommandFrame_frame (h : HostPort) (nbits : Nat) (mosi : List Word) (s : State) :
    FrameKept s (execCommandFrame h nbits mosi s) :=
  frameKept_next (by simp)

theorem execDupUnit_frame (h : HostPort) (s : State) : FrameKept s (execDupUnit h s) :=
  frameKept_next (by split <;> simp)

theorem execReadyStretch_frame (h : HostPort) (cycles : Nat) (s : State) :
    FrameKept s (execReadyStretch h cycles s) :=
  frameKept_next (by simp)

theorem execIrqnUpdate_frame (h : HostPort) (s : State) : FrameKept s (execIrqnUpdate h s) :=
  frameKept_next (by simp)

/-! Rows of Sys2Proof/Machine/Midway.lean -/

theorem execTbCtrlCapture_frame (s : State) : FrameKept s (execTbCtrlCapture s) :=
  frameKept_next (by simp)

theorem execCntSat_frame (s : State) : FrameKept s (execCntSat s) :=
  frameKept_next (by simp)

theorem execChOutSet_frame (m : BitVec 4) (s : State) : FrameKept s (execChOutSet m s) :=
  frameKept_next (by simp)

theorem execChOutClr_frame (m : BitVec 4) (s : State) : FrameKept s (execChOutClr m s) :=
  frameKept_next (by simp)

theorem execChOutTgl_frame (m : BitVec 4) (s : State) : FrameKept s (execChOutTgl m s) :=
  frameKept_next (by simp)

theorem execChDlyStart_frame (m : BitVec 8) (s : State) : FrameKept s (execChDlyStart m s) :=
  frameKept_next (by simp)

theorem execChDlyStop_frame (m : BitVec 8) (s : State) : FrameKept s (execChDlyStop m s) :=
  frameKept_next (by simp)

theorem execMidwayClockedDelivery_frame (c : Channel) (s : State) : FrameKept s (execMidwayClockedDelivery c s) :=
  frameKept_next (by split <;> simp)

theorem execDlyDone_frame (d : DelayNo) (s : State) : FrameKept s (execDlyDone d s) := by
  refine frameKept_next ?_
  (repeat' split) <;> simp

theorem execMwInEdge_frame (n : BallNo) (level : Bool) (s : State) : FrameKept s (execMwInEdge n level s) := by
  refine frameKept_next ?_
  (repeat' split) <;> simp

/-! Rows of Sys2Proof/Machine/Time.lean -/

theorem execTTick_frame (s : State) : FrameKept s (execTTick s) :=
  frameKept_next (by simp)

theorem execTbWrap_frame (s : State) : FrameKept s (execTbWrap s) :=
  frameKept_next (by simp)

/-- The rows that can write the fuses: those that can end in a full reset (R465), and the one that ends the programming of a
journal row (R487). -/
def mayWriteFuses : Instr → Bool
  | .commandComplete _ | .journalRowComplete | .powerOn _ _ _ _ | .supplyTrip _ _ _ | .resetn _ | .refclkLoss => true
  | _ => false

/-- Every other row keeps the queue of waiting commands and the fuses. -/
theorem exec_frameKept {c : Instr} (hw : mayWriteFuses c = false) (s : State) : FrameKept s (exec c s) := by
  cases c with
  | nop k => exact execNop_frame k s
  | getCaps k => exact execGetCaps_frame k s
  | getStatus k => exact execGetStatus_frame k s
  | snapshot k => exact execSnapshot_frame k s
  | lease k => exact execLease_frame k s
  | unlease k => exact execUnlease_frame k s
  | resetDevice k => exact execResetDevice_frame k s
  | regRead k => exact execRegRead_frame k s
  | regWrite k => exact execRegWrite_frame k s
  | regModify k => exact execRegModify_frame k s
  | synthSet k => exact execSynthSet_frame k s
  | synthCal k => exact execSynthCal_frame k s
  | fieldOn k => exact execFieldOn_frame k s
  | fieldOff k => exact execFieldOff_frame k s
  | powerSet k => exact execPowerSet_frame k s
  | tunePort k meas => exact execTunePort_frame k meas s
  | beamLoad k => exact execBeamLoad_frame k s
  | beamSelect k => exact execBeamSelect_frame k s
  | barkerArm k => exact execBarkerArm_frame k s
  | ringMode k => exact execRingMode_frame k s
  | calRun k meas => exact execCalRun_frame k meas s
  | calLoadSet k => exact execCalLoadSet_frame k s
  | calRead k => exact execCalRead_frame k s
  | stRound k => exact execStRound_frame k s
  | stSelect k => exact execStSelect_frame k s
  | stRead k => exact execStRead_frame k s
  | stWrite k => exact execStWrite_frame k s
  | stHalt k => exact execStHalt_frame k s
  | stSense k => exact execStSense_frame k s
  | stRaw k => exact execStRaw_frame k s
  | gInventory k => exact execGInventory_frame k s
  | gRead k => exact execGRead_frame k s
  | gWrite k => exact execGWrite_frame k s
  | gLock k => exact execGLock_frame k s
  | gKill k => exact execGKill_frame k s
  | gRaw k => exact execGRaw_frame k s
  | dirLookup k ecc => exact execDirLookup_frame k ecc s
  | dirStream k ecc => exact execDirStream_frame k ecc s
  | dirClear k => exact execDirClear_frame k s
  | dirLoad k ecc => exact execDirLoad_frame k ecc s
  | dirStats k => exact execDirStats_frame k s
  | dirMissing k ecc => exact execDirMissing_frame k ecc s
  | mpXfer k => exact execMpXfer_frame k s
  | mpMap k => exact execMpMap_frame k s
  | journalRead k => exact execJournalRead_frame k s
  | regionSet k => exact execRegionSet_frame k s
  | ceilingSet k => exact execCeilingSet_frame k s
  | roleSet k => exact execRoleSet_frame k s
  | patchLoad k => exact execPatchLoad_frame k s
  | patchSwap k => exact execPatchSwap_frame k s
  | unassignedOpcode k => exact execUnassignedOpcode_frame k s
  | tbCtrlCapture => exact execTbCtrlCapture_frame s
  | geomApply => exact execGeomApply_frame s
  | chOutSet m => exact execChOutSet_frame m s
  | chOutClr m => exact execChOutClr_frame m s
  | chOutTgl m => exact execChOutTgl_frame m s
  | chDlyStart m => exact execChDlyStart_frame m s
  | chDlyStop m => exact execChDlyStop_frame m s
  | cuStart u => exact execCuStart_frame u s
  | cuCheck u v => exact execCuCheck_frame u v s
  | cuDataWindow u vals => exact execCuDataWindow_frame u vals s
  | rclReadClear h addr => exact execRclReadClear_frame h addr s
  | registerWrite h addr v => exact execRegisterWrite_frame h addr v s
  | selnFall h sck => exact execSelnFall_frame h sck s
  | drain h nbits => exact execDrain_frame h nbits s
  | replay h nbits => exact execReplay_frame h nbits s
  | commandFrame h nbits mosi => exact execCommandFrame_frame h nbits mosi s
  | dupUnit h => exact execDupUnit_frame h s
  | readyStretch h cycles => exact execReadyStretch_frame h cycles s
  | irqnUpdate h => exact execIrqnUpdate_frame h s
  | carouselEntry => exact execCarouselEntry_frame s
  | turnedAway => exact execTurnedAway_frame s
  | replyQueued k => exact execReplyQueued_frame k s
  | commandUnitResume k => exact execCommandUnitResume_frame k s
  | tokenRefresh q => exact execTokenRefresh_frame q s
  | ringLost q => exact execRingLost_frame q s
  | lockDeclared q => exact execLockDeclared_frame q s
  | lockTo q => exact execLockTo_frame q s
  | synUnlock q => exact execSynUnlock_frame q s
  | bandCalComplete q band => exact execBandCalComplete_frame q band s
  | jugglerBandCal q => exact execJugglerBandCal_frame q s
  | quadTempConversion t0 t1 t2 t3 => exact execQuadTempConversion_frame t0 t1 t2 t3 s
  | receiveStepStart q => exact execReceiveStepStart_frame q s
  | receiveStepEnd q meas => exact execReceiveStepEnd_frame q meas s
  | receiveSequenceExpiry q => exact execReceiveSequenceExpiry_frame q s
  | detectorReading p d => exact execDetectorReading_frame p d s
  | barkerSynPowerup q => exact execBarkerSynPowerup_frame q s
  | barkerSlot p => exact execBarkerSlot_frame p s
  | barkerCompare p gi gq rl phase => exact execBarkerCompare_frame p gi gq rl phase s
  | barkerSlotEnd q => exact execBarkerSlotEnd_frame q s
  | roundStart q => exact execRoundStart_frame q s
  | stametFrameSend q => exact execStametFrameSend_frame q s
  | isoFrameSend q => exact execIsoFrameSend_frame q s
  | frameEnd q => exact execFrameEnd_frame q s
  | huntStart q noise => exact execHuntStart_frame q noise s
  | agcBlock p samples => exact execAgcBlock_frame p samples s
  | rfcUpdate p e => exact execRfcUpdate_frame p e s
  | rfcSat p => exact execRfcSat_frame p s
  | overload p dbm => exact execOverload_frame p dbm s
  | preambleLock p tz v => exact execPreambleLock_frame p tz v s
  | syncDeclaration p tz => exact execSyncDeclaration_frame p tz s
  | falseStart p tz => exact execFalseStart_frame p tz s
  | pilotQualityAbort p => exact execPilotQualityAbort_frame p s
  | portCrcVerdict p rx => exact execPortCrcVerdict_frame p rx s
  | combinedVerdict q taps => exact execCombinedVerdict_frame q taps s
  | noReplyDeadline q => exact execNoReplyDeadline_frame q s
  | bitReplyOutcome q => exact execBitReplyOutcome_frame q s
  | exchangeOutcome q => exact execExchangeOutcome_frame q s
  | dwellExpire q => exact execDwellExpire_frame q s
  | roundEnd q => exact execRoundEnd_frame q s
  | bearingFit => exact execBearingFit_frame s
  | directoryStep ecc => exact execDirectoryStep_frame ecc s
  | actionRecord q => exact execActionRecord_frame q s
  | dirScrub bucket err => exact execDirScrub_frame bucket err s
  | scanUnitQueue => exact execScanUnitQueue_frame s
  | midwayClockedDelivery c => exact execMidwayClockedDelivery_frame c s
  | dlyDone d => exact execDlyDone_frame d s
  | mwInEdge n level => exact execMwInEdge_frame n level s
  | fieldCut q => exact execFieldCut_frame q s
  | cntSat => exact execCntSat_frame s
  | tbWrap => exact execTbWrap_frame s
  | mpBusGrant => exact execMpBusGrant_frame s
  | mreadyTimeout => exact execMreadyTimeout_frame s
  | mpTransferEnd miso => exact execMpTransferEnd_frame miso s
  | lineFillEnd data => exact execLineFillEnd_frame data s
  | xipRead e => exact execXipRead_frame e s
  | patchSwapExecute => exact execPatchSwapExecute_frame s
  | watchdogTimeout w => exact execWatchdogTimeout_frame w s
  | resetRelease bootSrc hrole => exact execResetRelease_frame bootSrc hrole s
  | rootPllLock => exact execRootPllLock_frame s
  | fuseLoad => exact execFuseLoad_frame s
  | scrubComplete => exact execScrubComplete_frame s
  | bootHeaderCheck => exact execBootHeaderCheck_frame s
  | bootPatchInstall => exact execBootPatchInstall_frame s
  | readyRise => exact execReadyRise_frame s
  | calTableLoad => exact execCalTableLoad_frame s
  | tTick => exact execTTick_frame s
  | noisePhaseStart q => exact execNoisePhaseStart_frame q s
  | rampDownComplete q => exact execRampDownComplete_frame q s
  | mreadyResume high => exact execMreadyResume_frame high s
  | word0Complete h w0 => exact execWord0Complete_frame h w0 s
  | rxRetryWaitExpiry q => exact execRxRetryWaitExpiry_frame q s
  | commandComplete _ => cases hw
  | journalRowComplete => cases hw
  | powerOn _ _ _ _ => cases hw
  | supplyTrip _ _ _ => cases hw
  | resetn _ => cases hw
  | refclkLoss => cases hw

/-! ## The die

What is fixed on the die is in the fuses beside the journal's rows; a full reset and a programmed row write rows alone
(R469, R487, R489). -/

/-- The part of the fuses that the die fixes: everything but the journal's rows (R1, R413). -/
def FuseSt.die (f : FuseSt) : FuseSt := { f with rows := [] }

/-- Two dies are the same exactly when variant, serial number, mask revision and factory transmit phases agree. -/
theorem FuseSt.die_eq_iff {f g : FuseSt} :
    f.die = g.die ↔ f.variant = g.variant ∧ f.serial = g.serial ∧ f.step = g.step ∧ f.metal = g.metal ∧ f.txph = g.txph := by
  simp [FuseSt.die]

/-- A journal row is no part of the die. -/
@[simp] theorem FuseSt.die_rows (f : FuseSt) (r : SMap JRow) : ({ f with rows := r } : FuseSt).die = f.die := rfl

/-- A full reset that cuts a row's programming short leaves bits of that row and nothing else (R489). -/
@[simp] theorem fusesAfter_die (s : State) : (fusesAfter s).die = s.fuse.die := by
  unfold fusesAfter
  split
  · rfl
  · dsimp only
    split <;> rfl

/-- Full reset leaves the queue of waiting commands and the die (R469). -/
@[simp] theorem enterReset_die (s : State) (c : Cause) (h : HostPort) :
    (enterReset s c h).pending = s.pending ∧ (enterReset s c h).fuse.die = s.fuse.die :=
  ⟨rfl, fusesAfter_die s⟩

/-- Every owed effect leaves them, RESET_DEVICE's full reset too. -/
theorem doEffect_die (s : State) (k : Word) (sl : Slot) (t : Nat) (e : Effect) :
    (doEffect s k sl t e).pending = s.pending ∧ (doEffect s k sl t e).fuse.die = s.fuse.die := by
  by_cases he : e = .fullReset
  · subst he
    exact enterReset_die s .resetDevice sl.port
  · obtain ⟨hq, hf⟩ := doEffect_frame s k sl t he
    exact ⟨hq, congrArg FuseSt.die hf⟩

/-- A change in an E-cycle of its own leaves the queue and the die where it does. -/
theorem atTime_die {s : State} {e : Nat} {f : State → State}
    (h : ∀ t, (f t).pending = t.pending ∧ (f t).fuse.die = t.fuse.die) :
    (atTime s e f).pending = s.pending ∧ (atTime s e f).fuse.die = s.fuse.die := by
  unfold atTime inCommand
  dsimp only
  split <;> simp [h]

/-- What a command in flight owes, made one effect after the other, leaves the queue and the die (R354). -/
theorem runEffects_die (k : Word) (n t : Nat) (s : State) :
    (runEffects k n t s).pending = s.pending ∧ (runEffects k n t s).fuse.die = s.fuse.die := by
  induction n generalizing t s with
  | zero => exact ⟨rfl, rfl⟩
  | succ n ih =>
    unfold runEffects
    split
    · exact ⟨rfl, rfl⟩
    · rename_i sl hs
      split
      · split
        · rename_i d e rest he
          split
          · obtain ⟨hq, hd⟩ := ih d (atTime (updSlot s k (fun x => { x with effs := rest })) d (fun u =>
              doEffect u k { sl with effs := rest } d e))
            obtain ⟨hq', hd'⟩ := atTime_die (s := updSlot s k (fun x => { x with effs := rest })) (e := d)
              (fun u => doEffect_die u k { sl with effs := rest } d e)
            exact ⟨hq.trans hq', hd.trans hd'⟩
          · exact ⟨rfl, rfl⟩
        · obtain ⟨hq, hf⟩ := finishCommand_frame s k sl t
          exact ⟨hq, congrArg FuseSt.die hf⟩
      · exact ⟨rfl, rfl⟩

/-- A row answers a next state with the queue of waiting commands and the die of `s`. -/
def DieKept (s : State) (o : Host.Outcome State Fault Refusal) : Prop :=
  ∃ t, o = .next t ∧ t.pending = s.pending ∧ t.fuse.die = s.fuse.die

theorem dieKept_next {s t : State} (h : t.pending = s.pending ∧ t.fuse.die = s.fuse.die) : DieKept s (.next t) :=
  ⟨t, rfl, h⟩

theorem FrameKept.dieKept {s : State} {o : Host.Outcome State Fault Refusal} (h : FrameKept s o) : DieKept s o := by
  obtain ⟨t, ho, hq, hf⟩ := h
  exact ⟨t, ho, hq, congrArg FuseSt.die hf⟩

theorem execCommandComplete_die (k : Stamp) (s : State) : DieKept s (execCommandComplete k s) := by
  refine dieKept_next ?_
  split
  · exact runEffects_die k _ _ s
  · exact ⟨rfl, rfl⟩

/-- A programmed journal row enters the rows (R487). -/
theorem execJournalRowComplete_die (s : State) : DieKept s (execJournalRowComplete s) := by
  refine dieKept_next ?_
  split
  · dsimp only
    split <;> simp
  · exact ⟨rfl, rfl⟩

theorem execPowerOn_die (core an drv io : Nat) (s : State) : DieKept s (execPowerOn core an drv io s) :=
  dieKept_next (enterReset_die s .powerOn 0)

theorem pulseResets_die (s : State) (c : Cause) :
    (pulseResets s c).pending = s.pending ∧ (pulseResets s c).fuse.die = s.fuse.die := by
  unfold pulseResets
  split
  · exact enterReset_die s c 0
  · exact ⟨rfl, rfl⟩

theorem execSupplyTrip_die (x : Supply) (mv ns : Nat) (s : State) : DieKept s (execSupplyTrip x mv ns s) := by
  refine dieKept_next ?_
  split
  · exact ⟨rfl, rfl⟩
  · split
    · exact enterReset_die s .powerOn 0
    · split
      · exact ⟨rfl, rfl⟩
      · exact pulseResets_die s .powerOn

theorem execResetn_die (ns : Nat) (s : State) : DieKept s (execResetn ns s) := by
  refine dieKept_next ?_
  split
  · exact enterReset_die s .resetn 0
  · split
    · exact ⟨rfl, rfl⟩
    · exact pulseResets_die s .resetn

theorem execRefclkLoss_die (s : State) : DieKept s (execRefclkLoss s) := dieKept_next (enterReset_die s .refclk 0)

/-- Every command answers a next state, and leaves the queue of waiting commands and the die. -/
theorem exec_dieKept (c : Instr) (s : State) : DieKept s (exec c s) := by
  by_cases h : mayWriteFuses c = false
  · exact (exec_frameKept h s).dieKept
  · cases c with
    | commandComplete k => exact execCommandComplete_die k s
    | journalRowComplete => exact execJournalRowComplete_die s
    | powerOn core an drv io => exact execPowerOn_die core an drv io s
    | supplyTrip x mv ns => exact execSupplyTrip_die x mv ns s
    | resetn ns => exact execResetn_die ns s
    | refclkLoss => exact execRefclkLoss_die s
    | _ => exact absurd rfl h

/-- Settles O6: no arm of `exec` writes the fuses but a full reset and a programmed journal row, and both write rows alone. -/
theorem theDieNeverChanges : Obligations.TheDieNeverChanges := by
  unfold Obligations.TheDieNeverChanges
  intro c s t h
  obtain ⟨u, hu, -, hd⟩ := exec_dieKept c s
  obtain rfl : u = t := by
    rw [hu] at h
    exact Host.Outcome.next.inj h
  exact FuseSt.die_eq_iff.mp hd

end Sys2Proof.Machine

/-! # Handles and the directory's entries (R8, R131, R136) -/

namespace Sys2Proof.Machine

/-- A handle that can name an entry: below the entry count, and not 0x3FFFF (R8, R131). -/
def NamesEntry (v : Variant) (h : Nat) : Prop := h < 4 * Config.buckets v ∧ h ≠ noEntry

/-- A sorted directory whose entries all stand at handles that can name one. -/
def EntriesNamed (v : Variant) (m : SMap Entry) : Prop :=
  msorted 0 m = true ∧ ∀ h e, mfind m h = some e → NamesEntry v h

/-- Every handle of a variant has 18 bits. -/
theorem NamesEntry.lt_two_pow {v : Variant} {h : Nat} (n : NamesEntry v h) : h < 2 ^ 18 := by
  have hcount : 4 * Config.buckets v ≤ 2 ^ 18 := by cases v <;> decide
  exact Nat.lt_of_lt_of_le n.1 hcount

/-- A handle cannot name an entry exactly where it is at or above the entry count, or 0x3FFFF. -/
theorem not_namesEntry_iff {v : Variant} {h : Nat} :
    ¬ NamesEntry v h ↔ 4 * Config.buckets v ≤ h ∨ h = 0x3FFFF := by
  simp only [NamesEntry, noEntry]
  omega

/-- The directories in question, by what they hold nothing at. -/
theorem entriesNamed_iff {v : Variant} {m : SMap Entry} :
    EntriesNamed v m ↔
      msorted 0 m = true ∧ ∀ h, 4 * Config.buckets v ≤ h ∨ h = 0x3FFFF → mfind m h = none := by
  refine and_congr_right fun _ => forall_congr' fun h => ?_
  rw [← not_namesEntry_iff, Option.eq_none_iff_forall_ne_some]
  exact ⟨fun k hn e he => hn (k e he), fun k e he => Classical.byContradiction fun hn => k hn e he⟩

/-- The bucket count of a variant is a power of two (R131). -/
theorem buckets_eq_two_pow (v : Variant) : ∃ n, 1 ≤ n ∧ Config.buckets v = 2 ^ n := by
  cases v with
  | cx1664 => exact ⟨16, by decide⟩
  | cx0832 => exact ⟨14, by decide⟩
  | cx0416 => exact ⟨12, by decide⟩

/-- Both buckets of a name are buckets of the variant, also where the hashes agree and the second takes the other lowest
bit (R132). -/
theorem bucketsOf_lt (v : Variant) (n : Name) :
    (bucketsOf v n).1 < Config.buckets v ∧ (bucketsOf v n).2 < Config.buckets v := by
  obtain ⟨w, hw, hb⟩ := buckets_eq_two_pow v
  have hmod (x : Nat) : x % Config.buckets v < Config.buckets v := Nat.mod_lt _ (hb ▸ Nat.two_pow_pos w)
  have hflip (x : Nat) (hx : x < Config.buckets v) : x ^^^ 1 < Config.buckets v := by
    rw [hb] at hx ⊢
    exact Nat.xor_lt_two_pow hx (Nat.one_lt_two_pow (by omega))
  unfold bucketsOf
  refine ⟨hmod _, ?_⟩
  dsimp only
  split
  · exact hflip _ (hmod _)
  · exact hmod _

/-- A free slot of a bucket of the variant can name an entry (R131, R136). -/
theorem freeSlot_namesEntry {v : Variant} {m : SMap Entry} {b h : Nat} (hb : b < Config.buckets v)
    (hf : freeSlot m b = some h) : NamesEntry v h := by
  have hmem := List.mem_of_find?_eq_some hf
  have hp := List.find?_some hf
  simp only [handlesOf, List.mem_cons, List.not_mem_nil, or_false] at hmem
  simp only [Bool.and_eq_true, bne_iff_ne] at hp
  exact ⟨by omega, hp.1⟩

/-- The slot a displacement evicts can name an entry: 0x3FFFF is skipped (log entry 24). -/
theorem victim_namesEntry {v : Variant} {b : Nat} {c : BitVec 2} (hb : b < Config.buckets v) :
    NamesEntry v (victim b c) := by
  have hc : c.toNat < 4 := c.isLt
  unfold victim
  split
  · exact ⟨by omega, by simp only [noEntry]; omega⟩
  · exact ⟨by omega, ‹_›⟩

/-- An entry put in at a handle that can name one. -/
theorem EntriesNamed.mput {v : Variant} {m : SMap Entry} {h : Nat} (hm : EntriesNamed v m) (e : Entry)
    (hh : NamesEntry v h) : EntriesNamed v (mput m h e) := by
  obtain ⟨hs, hn⟩ := hm
  refine ⟨msorted_mput (Nat.zero_le h) hs, fun a x hx => ?_⟩
  rw [mfind_mput hs] at hx
  split at hx
  · rename_i ha
    exact ha ▸ hh
  · exact hn a x hx

/-- A name found stands at a handle that can name an entry (R133). -/
theorem EntriesNamed.findName {v : Variant} {m : SMap Entry} {n : Name} {h : Nat} (hm : EntriesNamed v m)
    (hf : findName v m n = some h) : NamesEntry v h := by
  have hp := List.find?_some hf
  cases he : mfind m h with
  | none => simp [he] at hp
  | some e => exact hm.2 h e he

/-- Displacements that find a place leave every entry at a handle that can name one (R136). -/
theorem displace_entriesNamed {v : Variant} {n : Nat} {m m' : SMap Entry} {c : BitVec 2} {b : Nat} {e : Entry}
    {ws : List Nat} (hm : EntriesNamed v m) (hb : b < Config.buckets v) (hr : (displace v n m c b e ws).1 = some m') :
    EntriesNamed v m' := by
  induction n generalizing m c b e ws with
  | zero => cases hr
  | succ n ih =>
    have hput := hm.mput e (victim_namesEntry (c := c) hb)
    unfold displace at hr
    dsimp only at hr
    split at hr
    · cases hr
      exact hput
    · rename_i old _
      have hb' : (if b = (bucketsOf v old.name).1 then (bucketsOf v old.name).2 else (bucketsOf v old.name).1) <
          Config.buckets v := by
        obtain ⟨h1, h2⟩ := bucketsOf_lt v old.name
        split
        · exact h2
        · exact h1
      split at hr
      · rename_i f hf
        cases hr
        exact hput.mput old (freeSlot_namesEntry hb' hf)
      · exact ih hput hb' hr

/-- A placement leaves every entry at a handle that can name one, and gives the name such a handle (R136, R137). -/
theorem place_entriesNamed {v : Variant} {m : SMap Entry} (hm : EntriesNamed v m) (c : BitVec 2) (e : Entry) :
    EntriesNamed v (place v m c e).entries ∧ ∀ h, (place v m c e).handle = some h → NamesEntry v h := by
  obtain ⟨h1, h2⟩ := bucketsOf_lt v e.name
  unfold place
  dsimp only
  split
  · rename_i h hf
    exact ⟨hm, fun x hx => Option.some.inj hx ▸ hm.findName hf⟩
  · split
    · rename_i h _ hf
      have hn := freeSlot_namesEntry h1 hf
      exact ⟨hm.mput e hn, fun x hx => Option.some.inj hx ▸ hn⟩
    · rename_i h _ hf
      have hn := freeSlot_namesEntry h2 hf
      exact ⟨hm.mput e hn, fun x hx => Option.some.inj hx ▸ hn⟩
    · split
      · rename_i m' hd
        have hm' := displace_entriesNamed hm h1 hd
        exact ⟨hm', fun x hx => hm'.findName hx⟩
      · exact ⟨hm, fun x hx => nomatch hx⟩

/-- Settles O52: a placement keeps the directory's entries at handles that can name one. -/
theorem handlesNameOnlyEntries : Obligations.HandlesNameOnlyEntries := by
  unfold Obligations.HandlesNameOnlyEntries
  intro v m c e hs hnone
  obtain ⟨hm, hh⟩ := place_entriesNamed (entriesNamed_iff.mpr ⟨hs, hnone⟩) c e
  exact ⟨(entriesNamed_iff.mp hm).2, fun h hr => ⟨(hh h hr).1, (hh h hr).lt_two_pow, (hh h hr).2⟩⟩

end Sys2Proof.Machine

/-! # Words of an absent port or quad (R4, R6) -/

namespace Sys2Proof.Machine

/-- A word of an absent port or quad: its quad, by the bank it stands in or among the words of SYS_RXCMB, is not on the
variant (R6). -/
def AbsentWord (v : Variant) (a q : Nat) : Prop :=
  (regQuad a = some q ∨ 0x0150 ≤ a ∧ a < 0x0154 ∧ q = a - 0x0150) ∧ Config.quads v ≤ q

/-- Four ports to a quad (R1, R23). -/
theorem ports_eq (v : Variant) : Config.ports v = 4 * Config.quads v := by cases v <;> rfl

/-- Where such words stand: in SYS_RXCMB, or in the port and quad banks. -/
theorem AbsentWord.bounds {v : Variant} {a q : Nat} (h : AbsentWord v a q) :
    0x0150 ≤ a ∧ a < 0x0154 ∨ 0x0400 ≤ a ∧ a < 0x0900 := by
  rcases h.1 with hq | ⟨hlo, hhi, -⟩
  · unfold regQuad at hq
    split at hq
    · omega
    · split at hq
      · omega
      · cases hq
  · exact .inl ⟨hlo, hhi⟩

/-- Which words of SYS_RXCMB stand on a variant (R6, R189). -/
theorem regPresent_rxcmb {v : Variant} {a : Nat} (hlo : 0x0150 ≤ a) (hhi : a < 0x0154) :
    regPresent v a = decide (a - 0x0150 < Config.quads v) := by
  rw [regPresent, if_neg (by omega), if_neg (by omega), if_neg (by omega), if_pos hhi]

/-- Which words of the port banks stand on a variant (R6, R406). -/
theorem regPresent_port {v : Variant} {a : Nat} (hlo : 0x0400 ≤ a) (hhi : a < 0x0800) :
    regPresent v a = (decide ((a - 0x0400) / 64 < Config.ports v) &&
      (Config.hasBearing v || !(decide (0x2C ≤ a % 64 ∧ a % 64 ≤ 0x31)))) := by
  rw [regPresent, if_neg (by omega), if_neg (by omega), if_neg (by omega), if_neg (by omega), if_neg (by omega),
    if_pos hhi]

/-- Which words of the quad banks stand on a variant (R6). -/
theorem regPresent_quad {v : Variant} {a : Nat} (hlo : 0x0800 ≤ a) (hhi : a < 0x0900) :
    regPresent v a = decide ((a - 0x0800) / 64 < Config.quads v) := by
  rw [regPresent, if_neg (by omega), if_neg (by omega), if_neg (by omega), if_neg (by omega), if_neg (by omega),
    if_neg (by omega), if_pos hhi]

/-- No register stands at such a word on the variant (R6). -/
theorem AbsentWord.not_present {v : Variant} {a q : Nat} (h : AbsentWord v a q) : regPresent v a = false := by
  obtain ⟨hq | ⟨hlo, hhi, hq⟩, hv⟩ := h
  · unfold regQuad at hq
    split at hq
    · rename_i hb
      cases hq
      have habs : ¬ (a - 0x0400) / 64 < Config.ports v := by
        rw [ports_eq]
        omega
      rw [regPresent_port hb.1 hb.2, decide_eq_false habs, Bool.false_and]
    · split at hq
      · rename_i hb
        cases hq
        rw [regPresent_quad hb.1 hb.2, decide_eq_false (by omega)]
      · cases hq
  · rw [regPresent_rxcmb hlo hhi, decide_eq_false (by omega)]

/-- Such a word lies inside its bank (R405). -/
theorem AbsentWord.inside {v : Variant} {a q : Nat} (h : AbsentWord v a q) : beyond a a = false := by
  have hb := h.bounds
  have hlast : a ≤ bankLast a := by
    rw [bankLast, if_neg (by omega)]
    split
    · omega
    · split
      · omega
      · rw [if_pos (by omega)]
        omega
  exact decide_eq_false (by omega)

/-- Nothing is written to a word that holds no register. -/
theorem placeWord_absent {s : State} {h : HostPort} {a : Nat} {v : Word} (hr : holdsReg s a = false) :
    placeWord s h a v = s := by
  rw [placeWord, if_neg (by simp [hr])]

/-- An access of one word inside its bank. -/
theorem insideWords_one {a : Nat} {v : Word} (hb : beyond a a = false) (ha : a ≤ 0xFFFF) :
    insideWords a a [v] = [(a, v)] := by
  simp [insideWords, hb, ha]

/-- A write of one word inside its bank places the word and does what follows from it (R382, R410). -/
theorem writeBlock_one {s : State} {h : HostPort} {a : Nat} {v : Word} (hb : beyond a a = false) (ha : a ≤ 0xFFFF) :
    writeBlock h a a [v] s =
      if holdsReg (placeWord s h a v) a then afterWrite (placeWord s h a v) a (s.reg a) v else placeWord s h a v := by
  simp [writeBlock, insideWords_one hb ha]

/-- A write of one word that holds no register changes nothing. -/
theorem writeBlock_absent {s : State} {h : HostPort} {a : Nat} {v : Word} (hr : holdsReg s a = false)
    (hb : beyond a a = false) (ha : a ≤ 0xFFFF) : writeBlock h a a [v] s = s := by
  rw [writeBlock_one hb ha, placeWord_absent hr, if_neg (by simp [hr])]

/-- REGISTER_WRITE of a word that holds no register changes nothing. -/
theorem execRegisterWrite_absent {s : State} {h : HostPort} {a : BitVec 16} {v : Word}
    (hr : holdsReg s a.toNat = false) (hb : beyond a.toNat a.toNat = false) :
    exec (.registerWrite h a v) s = .next s := by
  show Host.Outcome.next _ = _
  rw [writeBlock_absent hr hb (by omega), ite_self]

/-- A word that is no latched pair and no counter reads without effect (R409, R412). -/
theorem readEffects_plain {s : State} {h : HostPort} {a : Nat} (hr : isRcl s a = false)
    (hpair : a ∉ [0x1C00, 0x1C03, 0x0003, 0x1048, 0x104A]) : readEffects s h a = s := by
  simp only [List.mem_cons, List.not_mem_nil, or_false, not_or] at hpair
  obtain ⟨h1, h2, h3, h4, h5⟩ := hpair
  simp [readEffects, h1, h2, h3, h4, h5, hr]

/-- ID_PART is the part number of the variant (R4). -/
theorem peek_idPart (s : State) (h : HostPort) : peek s h 1 = Config.part s.variant := rfl

/-- Settles O51: a word of an absent port or quad holds no register on the variant, so it reads 0 and takes nothing. -/
theorem absentWordsReadZeroAndIgnoreWrites : Obligations.AbsentWordsReadZeroAndIgnoreWrites := by
  unfold Obligations.AbsentWordsReadZeroAndIgnoreWrites
  intro h a v s
  constructor
  · intro q hq hv
    have habs : AbsentWord s.variant a.toNat q := ⟨hq, hv⟩
    have hbounds := habs.bounds
    have hrcl : isRcl s a.toNat = false := by simp [isRcl, habs.not_present]
    have hread : readEffects s h a.toNat = s := readEffects_plain hrcl (by
      simp only [List.mem_cons, List.not_mem_nil, or_false, not_or]
      omega)
    have hheld : holdsReg s a.toNat = false := by simp [holdsReg, habs.not_present]
    refine ⟨?_, hread, execRegisterWrite_absent hheld habs.inside, ?_⟩
    · simp [peek, habs.not_present]
    · show Host.Outcome.next _ = _
      simp [hrcl]
  · rw [peek_idPart]
    unfold State.variant
    cases s.fuse.variant <;> rfl

end Sys2Proof.Machine

/-! # What a register write leaves behind (R18, R343, R410, R411) -/

namespace Sys2Proof.Machine

/-! ## The field map -/

/-- A row found in a table of registers is one of its rows. -/
theorem findReg_mem {l : List (Nat × RegDef)} {k : Nat} {r : RegDef} (h : findReg l k = some r) : (k, r) ∈ l := by
  induction l with
  | nil => cases h
  | cons e l ih =>
    obtain ⟨j, x⟩ := e
    unfold findReg at h
    split at h
    · rename_i hj
      cases h
      simp [hj]
    · exact List.mem_cons_of_mem _ (ih h)

/-- The register, if there is one, makes no bit both RW and W1C (R18). -/
def Apart (o : Option RegDef) : Prop := ∀ r, o = some r → r.rw &&& r.w1c = 0

theorem apart_none : Apart none := fun _ h => nomatch h

theorem apart_some {r : RegDef} (h : r.rw &&& r.w1c = 0) : Apart (some r) := fun _ hr => Option.some.inj hr ▸ h

/-- One of two registers, chosen by a condition. -/
theorem apart_ite {c : Prop} [Decidable c] {a b : Option RegDef} (ha : Apart a) (hb : Apart b) :
    Apart (if c then a else b) := by
  split
  · exact ha
  · exact hb

/-- A register of a table none of whose rows makes a bit both. -/
theorem apart_findReg {l : List (Nat × RegDef)} {k : Nat} (hl : l.all (fun e => e.2.rw &&& e.2.w1c == 0) = true) :
    Apart (findReg l k) :=
  fun _ h => eq_of_beq (List.all_eq_true.mp hl _ (findReg_mem h))

theorem midwayReg_apart (a : Nat) : Apart (midwayReg a) :=
  apart_ite (apart_some rfl) <| apart_ite (apart_some rfl) <| apart_ite (apart_some rfl) <| apart_ite (apart_some rfl) <|
  apart_ite (apart_some rfl) <| apart_ite (apart_some rfl) <| apart_ite (apart_some rfl) <| apart_ite (apart_some rfl) <|
  apart_ite apart_none <| apart_ite (apart_some rfl) <| apart_ite (apart_some rfl) <| apart_ite apart_none <|
  apart_ite (apart_some rfl) apart_none

theorem crcReg_apart (a : Nat) : Apart (crcReg a) := by
  have hcu : Apart (findReg cuTable (a % 16)) := apart_findReg (by decide)
  refine apart_ite ?_ (apart_ite apart_none (apart_ite (apart_some rfl) apart_none))
  split
  · exact apart_none
  · rename_i r hr
    exact apart_ite (apart_some BitVec.zero_and) (apart_some (hcu r hr))

/-- The field map makes no bit both RW and W1C (R18). -/
theorem regDef_apart (a : Nat) : Apart (regDef a) :=
  apart_ite (apart_findReg (by decide)) <| apart_ite (apart_some rfl) <| apart_ite apart_none <|
  apart_ite (apart_findReg (by decide)) <| apart_ite (apart_some rfl) <| apart_ite (apart_findReg (by decide)) <|
  apart_ite (apart_findReg (by decide)) <| apart_ite (apart_findReg (by decide)) <| apart_ite apart_none <|
  apart_ite (midwayReg_apart a) <| apart_ite (crcReg_apart a) <| apart_ite (apart_findReg (by decide)) <|
  apart_ite (apart_findReg (by decide)) <| apart_ite (apart_findReg (by decide)) <| apart_ite (apart_some rfl) <|
  apart_ite apart_none <| apart_ite (apart_some rfl) <| apart_ite apart_none <| apart_ite (apart_some rfl) apart_none

/-! ## A word placed -/

/-- RW and W1C bits of a written word are apart. -/
theorem writeMasks_apart (s : State) (h : HostPort) (a : Nat) :
    (writeMasks s h a).1 &&& (writeMasks s h a).2.1 = 0 := by
  unfold writeMasks
  split
  · rfl
  · rename_i r hr
    split
    · rfl
    · split
      · rfl
      · exact regDef_apart a r hr

/-- The register word that a write to a register leaves: RW fields take the value, unless an internal update met them in this
E-cycle, and W1C bits it names clear, but for those that set in this E-cycle (R410, R411). -/
def placedWord (s : State) (h : HostPort) (a : Nat) (v : Word) : Word :=
  let m := writeMasks s h a
  let keep := if isFed a then 0 else updateStands a ((s.reg a ^^^ s.view a) &&& m.1) m.1
  let hot := if s.cut.at_ = s.ecyc then mget (fun _ => 0) s.cut.hot a else 0
  ((s.reg a &&& ~~~ m.1) ||| (((v &&& ~~~ keep) ||| (s.reg a &&& keep)) &&& m.1)) &&&
    ~~~ (v &&& m.2.1 &&& s.view a &&& ~~~ hot)

/-- The word that reads of the E-cycle see of it from then on (R408). -/
def seenPlaced (s : State) (h : HostPort) (a : Nat) (v : Word) : Word :=
  let m := writeMasks s h a
  ((s.view a &&& ~~~ m.1) ||| (v &&& m.1)) &&& ~~~ (v &&& m.2.1)

/-- A write to a register places those two words and does nothing else. -/
theorem placeWord_eq {s : State} {h : HostPort} {a : Nat} {v : Word} (hr : holdsReg s a = true) :
    placeWord s h a v = (s.setView a (seenPlaced s h a v)).setReg a (placedWord s h a v) := if_pos hr

theorem setView_reg (s : State) (a b : Nat) (w : Word) : (s.setView a w).reg b = s.reg b := by
  simp [State.reg]

/-- A write leaves every other register as it is. -/
theorem placeWord_reg {s : State} {h : HostPort} {a b : Nat} {v : Word} (hw : mwf resetWord 0 s.regs = true)
    (hr : holdsReg s a = true) : (placeWord s h a v).reg b = if b = a then placedWord s h a v else s.reg b := by
  rw [placeWord_eq hr, reg_setReg (by simpa using hw), setView_reg]

theorem placeWord_regsOk {s : State} {h : HostPort} {a : Nat} {v : Word} (hw : mwf resetWord 0 s.regs = true) :
    mwf resetWord 0 (placeWord s h a v).regs = true := by
  by_cases hr : holdsReg s a = true
  · rw [placeWord_eq hr]
    exact setReg_regsOk (by simpa using hw)
  · rwa [placeWord_absent (by simpa using hr)]

/-- A write places register words, and touches nothing else of the state. -/
theorem placeWord_rest (s : State) (h : HostPort) (a : Nat) (v : Word) :
    placeWord s h a v = { s with regs := (placeWord s h a v).regs, cut := (placeWord s h a v).cut } := by
  unfold placeWord
  split
  · simp only [State.setReg, State.setView]
    split <;> rfl
  · rfl

/-- No update has met the word: none stands against the write. -/
theorem updateStands_zero (a : Nat) (rw : Word) : updateStands a 0 rw = 0 := if_pos rfl

theorem and_not_zero (x : Word) : x &&& ~~~ 0 = x := BitVec.and_allOnes

theorem apart_bit {x y : Word} (h : x &&& y = 0) {i : Nat} (hi : i < 32) : x[i] = false ∨ y[i] = false := by
  have hb : (x &&& y)[i] = false := by simp [h]
  rwa [BitVec.getElem_and, Bool.and_eq_false_iff] at hb

/-- The RW bits of a written word take the value, whichever flags stay set. -/
theorem written_rw {rw w1c : Word} (h : rw &&& w1c = 0) (old v stay : Word) :
    (((old &&& ~~~ rw) ||| (v &&& rw)) &&& ~~~ (v &&& w1c &&& stay)) &&& rw = v &&& rw := by
  ext i hi
  rcases apart_bit h hi with hb | hb
  · simp [hb]
  · cases hr : rw[i] <;> simp [hb, hr]

/-- A flag that reads 0 is 0 after the write, whether the written 1 counts or not. -/
theorem written_flags {rw w1c : Word} (h : rw &&& w1c = 0) (old v : Word) :
    ((old &&& ~~~ rw) ||| (v &&& rw)) &&& ~~~ (v &&& w1c &&& old) =
      ((old &&& ~~~ rw) ||| (v &&& rw)) &&& ~~~ (v &&& w1c) := by
  ext i hi
  rcases apart_bit h hi with hb | hb
  · cases ho : old[i] <;> simp [hb, ho]
  · simp [hb]

/-- Where no internal change of the E-cycle has met the register, the write takes whole; `stay` are the flags that set in
this E-cycle. -/
theorem placedWord_unmet {s : State} {h : HostPort} {a : Nat} {v : Word} (hv : s.view a = s.reg a) :
    ∃ stay, placedWord s h a v =
      ((s.reg a &&& ~~~ (writeMasks s h a).1) ||| (v &&& (writeMasks s h a).1)) &&&
        ~~~ (v &&& (writeMasks s h a).2.1 &&& (s.reg a &&& ~~~ stay)) ∧
      ((s.cut.at_ = s.ecyc → mget (fun _ => 0) s.cut.hot a = 0) → stay = 0) := by
  refine ⟨if s.cut.at_ = s.ecyc then mget (fun _ => 0) s.cut.hot a else 0, ?_, fun h => ?_⟩
  · unfold placedWord
    have hkeep : updateStands a 0#32 (writeMasks s h a).1 = 0 := updateStands_zero _ _
    have htake : (v &&& ~~~ 0) ||| (s.reg a &&& 0) = v := by
      rw [and_not_zero]
      simp
    simp only [hv, BitVec.xor_self, BitVec.zero_and, hkeep, ite_self, htake, BitVec.and_assoc]
  · split
    · exact h ‹_›
    · rfl

/-- Where no internal change of the E-cycle has met the register, its RW bits take the value. -/
theorem placedWord_rw {s : State} {h : HostPort} {a : Nat} {v : Word} (hv : s.view a = s.reg a) :
    placedWord s h a v &&& (writeMasks s h a).1 = v &&& (writeMasks s h a).1 := by
  obtain ⟨stay, hp, -⟩ := placedWord_unmet (h := h) (v := v) hv
  rw [hp, written_rw (writeMasks_apart s h a)]

/-- Where nothing has met the register and no flag of it has set in this E-cycle, reads of the E-cycle see the word placed. -/
theorem placedWord_eq_seen {s : State} {h : HostPort} {a : Nat} {v : Word} (hv : s.view a = s.reg a)
    (hot : s.cut.at_ = s.ecyc → mget (fun _ => 0) s.cut.hot a = 0) : placedWord s h a v = seenPlaced s h a v := by
  obtain ⟨stay, hp, hs⟩ := placedWord_unmet (h := h) (v := v) hv
  rw [hp, hs hot, and_not_zero, seenPlaced, hv, written_flags (writeMasks_apart s h a)]

/-- A flag that reads do not see, or that has set in this E-cycle, survives a 1 written to it (R411). -/
theorem placedWord_keeps_flag {s : State} {h : HostPort} {a i : Nat} {v : Word} (hi : i < 32)
    (hrw : bitAt (writeMasks s h a).1 i = false) (hset : bitAt (s.reg a) i = true)
    (hnew : bitAt (s.view a) i = false ∨ s.cut.at_ = s.ecyc ∧ bitAt (mget (fun _ => 0) s.cut.hot a) i = true) :
    bitAt (placedWord s h a v) i = true := by
  simp only [bitAt, BitVec.getLsbD_eq_getElem hi] at hrw hset hnew ⊢
  unfold placedWord
  generalize mget (fun _ => 0) s.cut.hot a = hot at hnew ⊢
  rcases hnew with hseen | ⟨hat, hhot⟩
  · simp [hrw, hset, hseen]
  · simp [hrw, hset, hat, hhot]

/-! ## What follows from the word placed -/

/-- A write of none of the triggers only places its words. -/
theorem afterWrite_placesOnly {s : State} {a : Nat} {old v : Word} (h : placesOnly a = true) :
    afterWrite s a old v = s := by
  simp only [placesOnly, Bool.not_eq_true', decide_eq_false_iff_not, not_or] at h
  obtain ⟨hgeom, hcmb, hport, hout, hdly, hcrc, htb⟩ := h
  rw [afterWrite, if_neg hgeom, if_neg hcmb, if_neg hport]
  split
  · rw [afterMidway, if_neg hout, if_neg hdly]
  · rfl

/-- The bits of a register that a write replaces are those of its row of the field map, or none. -/
theorem writeMasks_rw_apart (s : State) (h : HostPort) {a : Nat} {x : Word}
    (hx : (regDef a).all (fun r => r.rw &&& x == 0) = true) : (writeMasks s h a).1 &&& x = 0 := by
  unfold writeMasks
  split
  · exact BitVec.zero_and
  · rename_i r hr
    rw [hr] at hx
    split
    · exact BitVec.zero_and
    · split
      · exact BitVec.zero_and
      · exact eq_of_beq hx

/-- A register without RW bits takes no value. -/
theorem writeMasks_rw_zero (s : State) (h : HostPort) {a : Nat} (hx : (regDef a).all (fun r => r.rw == 0) = true) :
    (writeMasks s h a).1 = 0 := by
  have hall : (writeMasks s h a).1 &&& ~~~ 0 = 0 := writeMasks_rw_apart s h (by simpa only [and_not_zero] using hx)
  rwa [and_not_zero] at hall

/-! Bits of a word outside a mask. -/

theorem or_and_of_apart {w x m : Word} (h : x &&& m = 0) : (w ||| x) &&& m = w &&& m := by
  ext i hi
  rcases apart_bit h hi with hb | hb <;> simp [hb]

theorem and_not_and_of_apart {w x m : Word} (h : x &&& m = 0) : (w &&& ~~~ x) &&& m = w &&& m := by
  ext i hi
  rcases apart_bit h hi with hb | hb <;> simp [hb]

theorem setBit_and {w m : Word} {i : Nat} {b : Bool} (h : put i 1 1 &&& m = 0) : setBit w i b &&& m = w &&& m := by
  unfold setBit
  split
  · exact or_and_of_apart h
  · exact and_not_and_of_apart h

theorem setFld_and {w m : Word} {hi lo v : Nat} (h : ones hi lo &&& m = 0) (hp : put lo (hi + 1 - lo) v &&& m = 0) :
    setFld w hi lo v &&& m = w &&& m := by
  rw [setFld, or_and_of_apart hp, and_not_and_of_apart h]

/-! Register changes that leave the bits of a mask at one word. -/

/-- From `s` to `t` the register map stays canonical and the word at `a` keeps its bits under `m`. -/
def BitsKept (a : Nat) (m : Word) (s t : State) : Prop :=
  mwf resetWord 0 s.regs = true → mwf resetWord 0 t.regs = true ∧ t.reg a &&& m = s.reg a &&& m

namespace BitsKept

variable {a b : Nat} {m : Word} {s t u : State}

theorem of_regs (h : t.regs = s.regs) : BitsKept a m s t := fun hw => ⟨h ▸ hw, by rw [State.reg, h, ← State.reg]⟩

theorem trans (h : BitsKept a m s t) (k : BitsKept a m t u) : BitsKept a m s u := fun hw =>
  ⟨(k (h hw).1).1, (k (h hw).1).2.trans (h hw).2⟩

theorem setReg {w : Word} (h : a = b → w &&& m = s.reg b &&& m) : BitsKept a m s (s.setReg b w) := fun hw => by
  refine ⟨setReg_regsOk hw, ?_⟩
  rw [reg_setReg hw]
  split
  · rename_i hab
    rw [h hab, hab]
  · rfl

theorem setReg_other {w : Word} (h : a ≠ b) : BitsKept a m s (s.setReg b w) := setReg fun hab => absurd hab h

theorem setRegBit {i : Nat} {x : Bool} (h : a = b → put i 1 1 &&& m = 0) : BitsKept a m s (s.setRegBit b i x) := fun hw =>
  setReg (w := setBit (s.reg b) i x) (fun hab => setBit_and (h hab)) hw

theorem setRegBit_other {i : Nat} {x : Bool} (h : a ≠ b) : BitsKept a m s (s.setRegBit b i x) :=
  setRegBit fun hab => absurd hab h

theorem setRegFld {hi lo v : Nat} (h : a = b → ones hi lo &&& m = 0 ∧ put lo (hi + 1 - lo) v &&& m = 0) :
    BitsKept a m s (s.setRegFld b hi lo v) :=
  setReg fun hab => setFld_and (h hab).1 (h hab).2

theorem setRegFld_other {hi lo v : Nat} (h : a ≠ b) : BitsKept a m s (s.setRegFld b hi lo v) :=
  setRegFld fun hab => absurd hab h

theorem of_each {α : Type} {l : List α} {f : α → State → State} (h : ∀ x ∈ l, ∀ t, BitsKept a m t (f x t)) (s : State) :
    BitsKept a m s (each l f s) :=
  each_keeps (P := BitsKept a m s) (of_regs rfl) fun x hx t ht => ht.trans (h x hx t)

end BitsKept

/-! What transmit settings in use change (R205, R210, R220). -/

/-- A word apart from PORT_TX_CODE and QUAD_TX_STAT keeps its bits when codes, TSET and TFRAC change. -/
theorem applyCodes_bitsKept {a : Nat} {m : Word} {q : Quad} (hcode : ∀ p, a ≠ aPort p 0x22) (hstat : a ≠ aQuad q 0x06)
    (s : State) : BitsKept a m s (applyCodes s q) := by
  unfold applyCodes
  dsimp only
  split
  · exact (BitsKept.of_each (fun p _ t => BitsKept.setRegFld_other (hcode p)) s).trans (BitsKept.setReg_other hstat)
  · exact .of_regs rfl

/-- TX_EN is the one register bit that follows the carrier and EN in use (R220). -/
theorem portTx_bitsKept {a : Nat} {m : Word} {p : Port} (hen : a = aPort p 0x20 → put 8 1 1 &&& m = 0) (s : State) :
    BitsKept a m s (portTx s p) := by
  unfold portTx
  dsimp only
  refine BitsKept.trans (.of_regs ?_) (BitsKept.setRegBit hen)
  split
  · split <;> rfl
  · rfl

theorem refreshTx_bitsKept {a : Nat} {m : Word} (hen : ∀ p, a = aPort p 0x20 → put 8 1 1 &&& m = 0) (s : State)
    (q : Quad) : BitsKept a m s (refreshTx s q) := by
  have hports : BitsKept a m s (each (portsOf q) (fun p t => portTx t p) s) :=
    BitsKept.of_each (fun p _ t => portTx_bitsKept (hen p) t) s
  unfold refreshTx
  dsimp only
  split
  · exact hports.trans (BitsKept.of_each (fun _ _ _ => by exact .of_regs rfl) _)
  · exact hports

/-- Levels, rotators, tuner and transmit phases put in use, at once or not. -/
theorem applyIfIdle_bitsKept {a : Nat} {m : Word} {q : Quad} (hcode : ∀ p, a ≠ aPort p 0x22) (hstat : a ≠ aQuad q 0x06)
    (hen : ∀ p, a = aPort p 0x20 → put 8 1 1 &&& m = 0) (s : State) : BitsKept a m s (applyIfIdle s q) := by
  unfold applyIfIdle
  split
  · exact .of_regs rfl
  · exact (BitsKept.of_each (fun _ _ _ => by exact .of_regs rfl) s).trans
      ((applyCodes_bitsKept hcode hstat _).trans (refreshTx_bitsKept hen _ q))

/-! Values put in use over a list of words. -/

theorem inUse_apply1 {s : State} {a b : Nat} (hw : mwf resetWord 0 s.live = true) :
    (s.apply1 a).inUse b = if b = a then s.reg a else s.inUse b := inUse_setUse hw

theorem each_apply1_regs (l : List Nat) (s : State) : (each l (fun a t => t.apply1 a) s).regs = s.regs :=
  each_same State.regs (fun _ _ _ => by rfl) s

theorem each_apply1_inUse {l : List Nat} {s : State} {b : Nat} (hw : mwf resetWord 0 s.live = true) :
    (each l (fun a t => t.apply1 a) s).inUse b = if b ∈ l then s.reg b else s.inUse b := by
  induction l generalizing s with
  | nil => rfl
  | cons a l ih =>
    rw [each_cons, ih (s := s.apply1 a) (setUse_liveOk hw), inUse_apply1 hw]
    show (if b ∈ l then s.reg b else if b = a then s.reg a else s.inUse b) = _
    by_cases ha : b = a
    · subst ha
      simp
    · simp [ha]

theorem applyCodes_live (s : State) (q : Quad) : (applyCodes s q).live = s.live := by
  unfold applyCodes
  dsimp only
  split
  · exact each_same State.live (fun _ _ _ => by rfl) s
  · rfl

theorem portTx_live (s : State) (p : Port) : (portTx s p).live = s.live := by
  unfold portTx
  dsimp only
  split
  · split <;> rfl
  · rfl

theorem refreshTx_live (s : State) (q : Quad) : (refreshTx s q).live = s.live := by
  have hports : (each (portsOf q) (fun p t => portTx t p) s).live = s.live :=
    each_same State.live (fun p _ t => portTx_live t p) s
  unfold refreshTx
  dsimp only
  split
  · exact (each_same State.live (fun _ _ _ => by rfl) _).trans hports
  · exact hports

/-- With nothing to wait for, the words of the quad's ports that a start mark applies are in use as written. -/
theorem applyIfIdle_inUse {s : State} {q : Quad} {a : Nat} (hw : mwf resetWord 0 s.live = true)
    (hidle : (roundRuns s q || (fieldIsOn s q && (loneTune s q).isSome)) = false)
    (ha : a ∈ (portsOf q).flatMap markWords) : (applyIfIdle s q).inUse a = s.reg a := by
  rw [applyIfIdle, if_neg (by simp [hidle]), applyNow, State.inUse, refreshTx_live, applyCodes_live, ← State.inUse,
    each_apply1_inUse hw, if_pos ha]
/-! ## Port words -/

/-- Words of the port banks are apart from each other and from every quad word. -/
theorem aPort_inj {p r : Port} {x y : Nat} (hx : x < 64) (hy : y < 64) (h : aPort p x = aPort r y) : x = y := by
  unfold aPort at h
  omega

theorem aPort_ne_aQuad {p : Port} {q : Quad} {x y : Nat} (hx : x < 64) : aPort p x ≠ aQuad q y := by
  have hp := p.isLt
  unfold aPort aQuad
  omega

/-- The bits MAN_GAIN hands to the receiver are no RW bits of PORT_RX_AGC (R160). -/
theorem manualNow_bitsKept {a : Nat} {m : Word} {p : Port} (h : a = aPort p 0x12 → 0x1F &&& m = 0) (s : State) :
    BitsKept a m s (manualNow s p) := by
  unfold manualNow
  dsimp only
  split
  · exact .of_regs rfl
  · split
    · exact .of_regs rfl
    · refine BitsKept.setRegFld fun ha => ⟨h ha, ?_⟩
      have hsmall : ∀ g < 32, put 0 5 g &&& 0x1F = put 0 5 g := by decide
      have hg := hsmall (min 30 (fld (s.inUse (aPort p 0x12)) 20 16)) (by omega)
      show put 0 5 _ &&& m = 0
      rw [← hg, BitVec.and_assoc, h ha]
      exact BitVec.and_zero

theorem manualNow_live (s : State) (p : Port) : (manualNow s p).live = s.live := by
  unfold manualNow
  dsimp only
  split
  · rfl
  · split <;> rfl

/-- What follows a write to a port register leaves the bits of a mask at that register, where the mask has none of TX_EN, of
GAIN and of PORT_ANT_STAT. -/
theorem afterPort_bitsKept {m : Word} {p : Port} {off : Nat} (ho : off < 64) (h12 : off = 0x12 → 0x1F &&& m = 0)
    (h20 : off = 0x20 → put 8 1 1 &&& m = 0) (h2B : off = 0x2B → m = 0) (old v : Word) (s : State) :
    BitsKept (aPort p off) m s (afterPort s p off old v) := by
  have hother {y : Nat} (hy : y < 64) (hne : off ≠ y) : aPort p off ≠ aPort p y := fun h => hne (aPort_inj ho hy h)
  have hidle (h22 : off ≠ 0x22) (t : State) : BitsKept (aPort p off) m t (applyIfIdle t (quadOf p)) :=
    applyIfIdle_bitsKept (fun r h => h22 (aPort_inj ho (by omega) h)) (aPort_ne_aQuad ho)
      (fun r h => h20 (aPort_inj ho (by omega) h)) t
  unfold afterPort
  dsimp only
  split
  · split
    · exact .of_regs rfl
    · exact (BitsKept.setReg_other (hother (by omega) (by omega))).trans (.of_regs rfl)
  split
  · have hsat : BitsKept (aPort p off) m s (s.setRegBit (aPort p 0x0B) 0 false) :=
      BitsKept.setRegBit_other (hother (by omega) (by omega))
    split
    · exact hsat
    · exact hsat.trans (.of_regs rfl)
  split
  · split
    · exact .of_regs rfl
    · exact BitsKept.trans (t := s.apply1 (aPort p off)) (.of_regs rfl)
        (manualNow_bitsKept (fun h => h12 (aPort_inj ho (by omega) h)) _)
  split
  · exact (BitsKept.setRegBit_other (aPort_ne_aQuad ho)).trans (hidle (by omega) _)
  split
  · have hbase : BitsKept (aPort p off) m s (dropBase s p) :=
      BitsKept.trans (t := s.updPort p _) (.of_regs rfl) (BitsKept.setRegBit_other (hother (by omega) (by omega)))
    split
    · exact hbase
    · exact hbase.trans (.of_regs rfl)
  split
  · exact hidle (by omega) s
  split
  · split <;> exact .of_regs rfl
  split
  · rename_i h
    simp only [Bool.and_eq_true, decide_eq_true_eq] at h
    exact BitsKept.setRegFld fun _ => by simp [h2B h.1.1]
  · exact .of_regs rfl

/-- A write to the word leaves the value in use as it is, by the port's group (R410). -/
def portDeferred (s : State) (q : Quad) (off : Nat) : Bool :=
  if off ∈ [0x10, 0x11, 0x12, 0x13] then inExchange s q
  else if off = 0x0A ∨ off = 0x36 then fieldIsOn s q
  else if off = 0x28 then roundRuns s q
  else if off ∈ [0x20, 0x21, 0x37] then roundRuns s q || (fieldIsOn s q && (loneTune s q).isSome)
  else decide (off = 0x2A ∨ off = 0x2C)

/-! What a group waits for does not depend on register words. -/

@[simp] theorem fieldIsOn_setRegBit (s : State) (a i : Nat) (b : Bool) (q : Quad) :
    fieldIsOn (s.setRegBit a i b) q = fieldIsOn s q := rfl

@[simp] theorem roundRuns_dropBase (s : State) (p : Port) (q : Quad) : roundRuns (dropBase s p) q = roundRuns s q := rfl

@[simp] theorem dropBase_live (s : State) (p : Port) : (dropBase s p).live = s.live := rfl

/-- Levels stay out of use while their group waits. -/
theorem applyIfIdle_waits {s : State} {q : Quad}
    (h : (roundRuns s q || (fieldIsOn s q && (loneTune s q).isSome)) = true) : applyIfIdle s q = s := if_pos h

/-- A write that is deferred leaves every value in use. -/
theorem afterPort_live {s : State} {p : Port} {off : Nat} {old v : Word}
    (hd : portDeferred s (quadOf p) off = true) : (afterPort s p off old v).live = s.live := by
  unfold portDeferred at hd
  split at hd
  · rename_i h
    simp only [List.mem_cons, List.not_mem_nil, or_false] at h
    rcases h with rfl | rfl | rfl | rfl <;> simp [afterPort, hd]
  split at hd
  · rename_i h
    rcases h with rfl | rfl <;> simp [afterPort, hd]
  split at hd
  · rename_i h
    subst h
    simp [afterPort, hd]
  split at hd
  · rename_i h
    simp only [List.mem_cons, List.not_mem_nil, or_false] at h
    rcases h with rfl | rfl | rfl
    · simp [afterPort, applyIfIdle_waits hd]
    · have hd' : (roundRuns (s.setRegBit (aQuad (quadOf p) 0x06) 13 false) (quadOf p) ||
          (fieldIsOn (s.setRegBit (aQuad (quadOf p) 0x06) 13 false) (quadOf p) &&
            (loneTune (s.setRegBit (aQuad (quadOf p) 0x06) 13 false) (quadOf p)).isSome)) = true := hd
      simp [afterPort, applyIfIdle_waits hd']
    · simp [afterPort, applyIfIdle_waits hd]
  · rcases of_decide_eq_true hd with rfl | rfl <;> simp [afterPort]

/-- A word put in use is in use as it is written. -/
theorem inUse_apply1_same {s : State} {a : Nat} (hw : mwf resetWord 0 s.live = true) :
    (s.apply1 a).inUse a = s.reg a := by
  rw [inUse_apply1 hw, if_pos rfl]

/-- A port stands among the ports of its quad. -/
theorem mem_portsOf_quadOf (p : Port) : p ∈ portsOf (quadOf p) := by
  simp only [portsOf, quadOf, List.mem_cons, List.not_mem_nil, or_false, Fin.ext_iff]
  omega

/-- A write that is not deferred is in use at once, of a word that has a value in use beside the written one. -/
theorem afterPort_inUse {s : State} {p : Port} {off : Nat} {old v : Word} (hr : mwf resetWord 0 s.regs = true)
    (hw : mwf resetWord 0 s.live = true) (ho : off ∈ [0x0A, 0x10, 0x11, 0x12, 0x13, 0x20, 0x21, 0x28, 0x36, 0x37])
    (hd : portDeferred s (quadOf p) off = false) :
    (afterPort s p off old v).inUse (aPort p off) = s.reg (aPort p off) := by
  have hrx {x : Nat} (hx : x ∈ [0x10, 0x11, 0x12, 0x13]) (hx' : portDeferred s (quadOf p) x = false) :
      (afterPort s p x old v).inUse (aPort p x) = s.reg (aPort p x) := by
    have hex : inExchange s (quadOf p) = false := by rwa [portDeferred, if_pos hx] at hx'
    simp only [List.mem_cons, List.not_mem_nil, or_false] at hx
    rw [afterPort, if_neg (by omega), if_neg (by omega), if_pos (by omega), if_neg (by simp [hex]), State.inUse,
      manualNow_live]
    exact inUse_apply1_same hw
  have hmark {x : Nat} (hx : x ∈ [0x20, 0x21, 0x28, 0x37]) : aPort p x ∈ (portsOf (quadOf p)).flatMap markWords := by
    refine List.mem_flatMap.mpr ⟨p, mem_portsOf_quadOf p, ?_⟩
    simp only [List.mem_cons, List.not_mem_nil, or_false] at hx
    rcases hx with rfl | rfl | rfl | rfl <;> simp [markWords]
  have hother {a i : Nat} {b : Bool} {x : Nat} (ha : aPort p x ≠ a) :
      (s.setRegBit a i b).reg (aPort p x) = s.reg (aPort p x) := by
    rw [reg_setRegBit hr, if_neg ha]
  simp only [List.mem_cons, List.not_mem_nil, or_false] at ho
  rcases ho with rfl | rfl | rfl | rfl | rfl | rfl | rfl | rfl | rfl | rfl
  · have hon : fieldIsOn s (quadOf p) = false := by simpa [portDeferred] using hd
    simp only [afterPort, fieldIsOn_setRegBit, hon]
    exact (inUse_apply1_same (s := s.setRegBit (aPort p 0x0B) 0 false) hw).trans (hother (by simp [aPort]))
  · exact hrx (by decide) hd
  · exact hrx (by decide) hd
  · exact hrx (by decide) hd
  · exact hrx (by decide) hd
  · exact applyIfIdle_inUse hw hd (hmark (by decide))
  · exact (applyIfIdle_inUse (s := s.setRegBit (aQuad (quadOf p) 0x06) 13 false) hw hd (hmark (by decide))).trans
      (hother (aPort_ne_aQuad (by decide)))
  · have hrun : roundRuns s (quadOf p) = false := by simpa [portDeferred] using hd
    simp only [afterPort, roundRuns_dropBase, hrun]
    exact (inUse_apply1_same (s := dropBase s p) hw).trans (hother (by simp [aPort]))
  · have hon : fieldIsOn s (quadOf p) = false := by simpa [portDeferred] using hd
    simpa [afterPort, hon] using inUse_apply1_same hw
  · exact applyIfIdle_inUse hw hd (hmark (by decide))
/-! ## Every bank -/

/-- The port of a word of the port banks. -/
def wordPort (a : Nat) : Port := ⟨(a - 0x0400) / 64 % 16, by omega⟩

theorem aPort_wordPort {a : Nat} (hlo : 0x0400 ≤ a) (hhi : a < 0x0800) : aPort (wordPort a) (a % 64) = a := by
  unfold aPort wordPort
  dsimp only
  omega

theorem regDef_port {a : Nat} (hlo : 0x0400 ≤ a) (hhi : a < 0x0800) : regDef a = findReg portTable (a % 64) := by
  rw [regDef, if_neg (by omega), if_neg (by omega), if_neg (by omega), if_neg (by omega), if_neg (by omega),
    if_neg (by omega), if_pos (by omega)]

theorem regDef_crc {a : Nat} (hlo : 0x1400 ≤ a) (hhi : a < 0x1800) : regDef a = crcReg a := by
  rw [regDef, if_neg (by omega), if_neg (by omega), if_neg (by omega), if_neg (by omega), if_neg (by omega),
    if_neg (by omega), if_neg (by omega), if_neg (by omega), if_neg (by omega), if_neg (by omega), if_pos (by omega)]

/-- The data windows, CU_CTRL and CU_CHECK have no RW bits (R462). -/
theorem crcReg_rw_zero {a : Nat} (h : 0x1480 ≤ a ∨ a % 16 = 6 ∨ a % 16 = 7) :
    (crcReg a).all (fun r => r.rw == 0) = true := by
  have hcu : ∀ o, o = 6 ∨ o = 7 → (findReg cuTable o).all (fun r => r.rw == 0) = true := by
    rintro o (rfl | rfl) <;> decide
  unfold crcReg
  split
  · have hrow := hcu (a % 16) (by omega)
    split
    · rfl
    · rename_i r hr
      rw [hr] at hrow
      split
      · rfl
      · exact hrow
  · split
    · rfl
    · split <;> rfl

/-- What follows a write leaves the RW bits of the written register as placed. -/
theorem afterWrite_reg_and {u : State} {a : Nat} {old v : Word} (hw : mwf resetWord 0 u.regs = true) (s : State)
    (h : HostPort) :
    (afterWrite u a old v).reg a &&& (writeMasks s h a).1 = u.reg a &&& (writeMasks s h a).1 := by
  have hzero {t : State} (hx : (regDef a).all (fun r => r.rw == 0) = true) :
      t.reg a &&& (writeMasks s h a).1 = u.reg a &&& (writeMasks s h a).1 := by
    rw [writeMasks_rw_zero s h hx]
    exact BitVec.and_zero.trans BitVec.and_zero.symm
  unfold afterWrite
  split
  · rename_i ha
    split
    · rw [geomApply, reg_setReg (by rw [each_apply1_regs]; exact hw), if_neg (by omega), State.reg, each_apply1_regs]
      rfl
    · rfl
  split
  · split <;> rfl
  split
  · rename_i ha
    obtain ⟨hlo, hhi⟩ := ha
    have hx {x : Word} (hx : (findReg portTable (a % 64)).all (fun r => r.rw &&& x == 0) = true) :
        x &&& (writeMasks s h a).1 = 0 := by
      rw [BitVec.and_comm]
      exact writeMasks_rw_apart s h (by rwa [regDef_port hlo hhi])
    have hkept := afterPort_bitsKept (m := (writeMasks s h a).1) (p := wordPort a) (off := a % 64) (by omega)
      (fun ho => hx (by rw [ho]; decide)) (fun ho => hx (by rw [ho]; decide))
      (fun ho => writeMasks_rw_zero s h (by rw [regDef_port hlo hhi, ho]; decide)) old v u hw
    rw [aPort_wordPort hlo hhi] at hkept
    exact hkept.2
  split
  · unfold afterMidway
    split
    · rename_i ha
      exact hzero (by rw [ha]; decide)
    split
    · rename_i ha
      exact hzero (by rw [ha]; decide)
    · rfl
  split
  · rename_i ha
    obtain ⟨hlo, hhi⟩ := ha
    have hcrc (hx : 0x1480 ≤ a ∨ a % 16 = 6 ∨ a % 16 = 7) : (regDef a).all (fun r => r.rw == 0) = true := by
      rw [regDef_crc hlo hhi]
      exact crcReg_rw_zero hx
    unfold afterCrc
    split
    · exact hzero (hcrc (by omega))
    split
    · rfl
    split
    · rw [cuWritten, reg_setReg (by simpa using hw), if_neg (by unfold aCu; omega), setView_reg]
    split
    · exact hzero (hcrc (by omega))
    split
    · exact hzero (hcrc (by omega))
    · rfl
  split
  · rename_i ha
    exact hzero (by rw [ha]; decide)
  · rfl

/-- The port banks' part of R410. -/
theorem deferred_port {s : State} {a : Nat} (hlo : 0x0400 ≤ a) (hhi : a < 0x0800) :
    deferred s a = portDeferred s (quadOf (wordPort a)) (a % 64) := by
  have hq : four ((a - 0x0400) / 256) = quadOf (wordPort a) := by
    apply Fin.ext
    simp only [four, quadOf, wordPort]
    omega
  rw [deferred, if_neg (by omega), if_pos ⟨hlo, hhi⟩, hq]
  rfl

/-- A word with a value in use that a write may put in use at once is of SYS_RXCMB or of a port bank (R410). -/
theorem hasUse_iff {a : Nat} :
    hasUse a = true ↔ 0x0150 ≤ a ∧ a < 0x0154 ∨
      (0x0400 ≤ a ∧ a < 0x0800) ∧ a % 64 ∈ [0x0A, 0x10, 0x11, 0x12, 0x13, 0x20, 0x21, 0x28, 0x36, 0x37] := by
  simp only [hasUse, decide_eq_true_eq, and_assoc]

/-- A write that is deferred leaves every value in use as it is (R410). -/
theorem afterWrite_live {s : State} {a : Nat} {old v : Word} (hd : deferred s a = true) :
    (afterWrite s a old v).live = s.live := by
  by_cases hcmb : 0x0150 ≤ a ∧ a < 0x0154
  · rw [deferred, if_pos hcmb] at hd
    rw [afterWrite, if_neg (by omega), if_pos hcmb, if_pos hd]
  · by_cases hport : 0x0400 ≤ a ∧ a < 0x0800
    · rw [deferred_port hport.1 hport.2] at hd
      rw [afterWrite, if_neg (by omega), if_neg hcmb, if_pos hport]
      exact afterPort_live hd
    · rw [deferred, if_neg hcmb, if_neg hport, decide_eq_true_eq] at hd
      rw [afterWrite_placesOnly (by simp only [placesOnly, Bool.not_eq_true', decide_eq_false_iff_not]; omega)]

/-- A write that is not deferred is in use at once (R410). -/
theorem afterWrite_inUse {s : State} {a : Nat} {old v : Word} (hr : mwf resetWord 0 s.regs = true)
    (hw : mwf resetWord 0 s.live = true) (hu : hasUse a = true) (hd : deferred s a = false) :
    (afterWrite s a old v).inUse a = s.reg a := by
  rcases hasUse_iff.mp hu with hcmb | ⟨hport, hoff⟩
  · rw [deferred, if_pos hcmb] at hd
    rw [afterWrite, if_neg (by omega), if_pos hcmb, if_neg (by simp [hd])]
    exact inUse_apply1_same hw
  · rw [deferred_port hport.1 hport.2] at hd
    have hport' := afterPort_inUse (old := old) (v := v) hr hw hoff hd
    rw [aPort_wordPort hport.1 hport.2] at hport'
    rwa [afterWrite, if_neg (by omega), if_neg (by omega), if_pos hport]

/-! ## REGISTER_WRITE -/

theorem holdsReg_placeWord (s : State) (h : HostPort) (a b : Nat) (v : Word) :
    holdsReg (placeWord s h a v) b = holdsReg s b := by
  rw [placeWord_rest]
  rfl

theorem deferred_placeWord (s : State) (h : HostPort) (a b : Nat) (v : Word) :
    deferred (placeWord s h a v) b = deferred s b := by
  rw [placeWord_rest]
  rfl

theorem placeWord_live (s : State) (h : HostPort) (a : Nat) (v : Word) : (placeWord s h a v).live = s.live := by
  rw [placeWord_rest]

/-- A write of one register: it is placed, and what follows from it is done. -/
theorem writeBlock_held {s : State} {h : HostPort} {a : Nat} {v : Word} (hr : holdsReg s a = true)
    (hb : beyond a a = false) (ha : a ≤ 0xFFFF) :
    writeBlock h a a [v] s = afterWrite (placeWord s h a v) a (s.reg a) v := by
  rw [writeBlock_one hb ha, holdsReg_placeWord, if_pos hr]

/-- REGISTER_WRITE needs the lease of the register's quad and levels within the ceiling (R216, R360). -/
theorem exec_registerWrite (h : HostPort) (a : BitVec 16) (v : Word) (s : State) :
    exec (.registerWrite h a v) s = .next
      (if s.tb.run && (unleasedAt s h a.toNat 1).isNone &&
          (ceilingAt (writeBlock h a.toNat a.toNat [v] s) s.variant a.toNat 1).isNone
        then writeBlock h a.toNat a.toNat [v] s else s) := rfl

/-- Registers from the host-port banks on need no lease and are under no ceiling, and a write of one only places it. -/
theorem exec_registerWrite_hostBanks {h : HostPort} {a : BitVec 16} {v : Word} {s : State} (hrun : s.tb.run = true)
    (hlo : 0x2000 ≤ a.toNat) (hb : beyond a.toNat a.toNat = false) (hr : holdsReg s a.toNat = true) :
    exec (.registerWrite h a v) s = .next (placeWord s h a.toNat v) := by
  have hplaces : placesOnly a.toNat = true := by
    simp only [placesOnly, Bool.not_eq_true', decide_eq_false_iff_not]
    omega
  have hlease : unleasedAt s h a.toNat 1 = none := by
    have hq : regQuad a.toNat = none := by
      rw [regQuad, if_neg (by omega), if_neg (by omega)]
    simp [unleasedAt, hq]
  have hceil (t : State) : ceilingAt t s.variant a.toNat 1 = none := by
    simp [ceilingAt, show ¬ a.toNat < 0x0800 by omega]
  rw [exec_registerWrite, hlease, hceil, writeBlock_held hr hb (by omega), afterWrite_placesOnly hplaces]
  simp [hrun]

/-- Canonical maps: the register words and the values in use among them. -/
theorem registers_of_mapsOk {s : State} (h : s.mapsOk = true) :
    mwf resetWord 0 s.regs = true ∧ mwf resetWord 0 s.live = true := by
  simp only [State.mapsOk, Bool.and_eq_true, and_assoc] at h
  obtain ⟨hregs, hlive, -⟩ := h
  exact ⟨hregs, hlive⟩

/-- A register of the host-port banks takes exactly what the field map lets it take, where nothing has met it in this
E-cycle (R18, R343). -/
theorem hostBanks_write_plain {h : HostPort} {a : BitVec 16} {v : Word} {s : State} (hrun : s.tb.run = true)
    (hlo : 0x2000 ≤ a.toNat) (hb : beyond a.toNat a.toNat = false) (hr : holdsReg s a.toNat = true)
    (hv : s.view a.toNat = s.reg a.toNat)
    (hot : s.cut.at_ = s.ecyc → mget (fun _ => 0) s.cut.hot a.toNat = 0) :
    exec (.registerWrite h a v) s = .next
      ((s.setView a.toNat (seenPlaced s h a.toNat v)).setReg a.toNat (seenPlaced s h a.toNat v)) := by
  rw [exec_registerWrite_hostBanks hrun hlo hb hr, placeWord_eq hr, placedWord_eq_seen hv hot]

/-- Such a write touches no other register, and no flag that reads do not see or that has set in this E-cycle (R411). -/
theorem hostBanks_write_frame {h : HostPort} {a : BitVec 16} {v : Word} {s : State} (hrun : s.tb.run = true)
    (hlo : 0x2000 ≤ a.toNat) (hb : beyond a.toNat a.toNat = false) (hw : mwf resetWord 0 s.regs = true) :
    ∃ t, exec (.registerWrite h a v) s = .next t ∧ (∀ b, b ≠ a.toNat → t.reg b = s.reg b) ∧
      ∀ i, i < 32 → bitAt (writeMasks s h a.toNat).1 i = false → bitAt (s.reg a.toNat) i = true →
        (bitAt (s.view a.toNat) i = false ∨
          s.cut.at_ = s.ecyc ∧ bitAt (mget (fun _ => 0) s.cut.hot a.toNat) i = true) → bitAt (t.reg a.toNat) i = true := by
  by_cases hr : holdsReg s a.toNat = true
  · refine ⟨_, exec_registerWrite_hostBanks hrun hlo hb hr, fun b hne => ?_, fun i hi hrw hset hnew => ?_⟩
    · rw [placeWord_reg hw hr, if_neg hne]
    · rw [placeWord_reg hw hr, if_pos rfl]
      exact placedWord_keeps_flag hi hrw hset hnew
  · exact ⟨s, execRegisterWrite_absent (by simpa using hr) hb, fun _ _ => rfl, fun _ _ _ hset _ => hset⟩

/-- Without the lease, or above the ceiling, nothing is written (R216, R360). -/
theorem registerWrite_refused {h : HostPort} {a : BitVec 16} {v : Word} {s : State}
    (hno : ((unleasedAt s h a.toNat 1).isSome ||
      (ceilingAt (writeBlock h a.toNat a.toNat [v] s) s.variant a.toNat 1).isSome) = true) :
    exec (.registerWrite h a v) s = .next s := by
  have hrefused : ¬ (s.tb.run && (unleasedAt s h a.toNat 1).isNone &&
      (ceilingAt (writeBlock h a.toNat a.toNat [v] s) s.variant a.toNat 1).isNone) = true := by
    simp only [Bool.or_eq_true, Option.isSome_iff_ne_none] at hno
    simp only [Bool.and_eq_true, Option.isNone_iff_eq_none]
    rintro ⟨⟨-, hleased⟩, hwithin⟩
    rcases hno with hlease | hceil
    · exact hlease hleased
    · exact hceil hwithin
  rw [exec_registerWrite, if_neg hrefused]

/-- With the lease and within the ceiling the word is placed, and what follows from it is done. -/
theorem registerWrite_admitted {h : HostPort} {a : BitVec 16} {v : Word} {s : State} (hrun : s.tb.run = true)
    (hr : holdsReg s a.toNat = true) (hb : beyond a.toNat a.toNat = false) (hl : unleasedAt s h a.toNat 1 = none)
    (hc : ceilingAt (writeBlock h a.toNat a.toNat [v] s) s.variant a.toNat 1 = none) :
    exec (.registerWrite h a v) s = .next (afterWrite (placeWord s h a.toNat v) a.toNat (s.reg a.toNat) v) := by
  rw [exec_registerWrite, hl, hc, writeBlock_held hr hb (by omega)]
  simp [hrun]

/-- What a register write leaves, in every bank (R18, R410). -/
theorem afterWrite_placeWord {s : State} {h : HostPort} {a : Nat} {v : Word} (hm : s.mapsOk = true)
    (hr : holdsReg s a = true) :
    let t := afterWrite (placeWord s h a v) a (s.reg a) v
    let rw := (writeMasks s h a).1
    (s.view a = s.reg a → t.reg a &&& rw = v &&& rw ∧
        (hasUse a = true → deferred s a = false → t.inUse a &&& rw = v &&& rw)) ∧
      (deferred s a = true → ∀ b, t.inUse b = s.inUse b) ∧
      (placesOnly a = true → (∀ b, b ≠ a → t.reg b = s.reg b) ∧ t = { s with regs := t.regs, cut := t.cut }) := by
  have hregs := (registers_of_mapsOk hm).1
  have hplaced : mwf resetWord 0 (placeWord s h a v).regs = true := placeWord_regsOk hregs
  have hlive : mwf resetWord 0 (placeWord s h a v).live = true := by
    rw [placeWord_live]
    exact (registers_of_mapsOk hm).2
  dsimp only
  refine ⟨fun hv => ?_, fun hd b => ?_, fun hp => ?_⟩
  · have hword : (placeWord s h a v).reg a &&& (writeMasks s h a).1 = v &&& (writeMasks s h a).1 := by
      rw [placeWord_reg hregs hr, if_pos rfl, placedWord_rw hv]
    refine ⟨(afterWrite_reg_and hplaced s h).trans hword, fun hu hd => ?_⟩
    rw [afterWrite_inUse hplaced hlive hu (by rw [deferred_placeWord, hd]), hword]
  · rw [State.inUse, afterWrite_live (by rw [deferred_placeWord, hd]), placeWord_live, ← State.inUse]
  · rw [afterWrite_placesOnly hp]
    exact ⟨fun b hne => by rw [placeWord_reg hregs hr, if_neg hne], placeWord_rest s h a v⟩

/-- Settles O14: a register write places one word by the field map's masks, and what follows from it touches no RW bit of
that word. -/
theorem registerWritesFollowTheFieldMap : Obligations.RegisterWritesFollowTheFieldMap := by
  unfold Obligations.RegisterWritesFollowTheFieldMap
  refine ⟨fun h a v s hrun hlo hb => ⟨fun hr => execRegisterWrite_absent hr hb, fun hr hv hot => ?_, fun hm => ?_⟩,
    fun h a v s hrun => ⟨registerWrite_refused, fun hm hr hb hl hc => ?_⟩⟩
  · rw [hostBanks_write_plain hrun hlo hb hr hv hot, seenPlaced, hv]
  · obtain ⟨t, ht, hother, hflag⟩ := hostBanks_write_frame (h := h) (v := v) hrun hlo hb (registers_of_mapsOk hm).1
    exact ⟨t, ht, hother, fun i hi _ => hflag i hi⟩
  · exact ⟨_, registerWrite_admitted hrun hr hb hl hc, afterWrite_placeWord hm hr⟩

end Sys2Proof.Machine

/-! # Time and the timebase (R49, R51, R52, R56) -/

namespace Sys2Proof.Machine

/-- A bit written reads back. -/
theorem bitAt_setBit_same {w : Word} {i : Nat} (hi : i < 32) (b : Bool) : bitAt (setBit w i b) i = b := by
  have hput : (put i 1 1).getLsbD i = true := by
    rw [put, BitVec.getLsbD_ofNat]
    simp [hi]
  cases b <;> simp [setBit, bitAt, hput, hi]

section

variable {s : State}

/-- A written bit keeps the register map canonical. -/
theorem setRegBit_regsOk {a i : Nat} {b : Bool} (hw : mwf resetWord 0 s.regs = true) :
    mwf resetWord 0 (s.setRegBit a i b).regs = true := setReg_regsOk hw

/-- A bit written to a register word is there. -/
theorem bitAt_setRegBit_same {a i : Nat} {b : Bool} (hw : mwf resetWord 0 s.regs = true) (hi : i < 32) :
    bitAt ((s.setRegBit a i b).reg a) i = b := by
  rw [reg_setRegBit hw, if_pos rfl]
  exact bitAt_setBit_same hi b

/-- A bit written to a register word leaves every other word. -/
theorem reg_setRegBit_other {a c i : Nat} {b : Bool} (hw : mwf resetWord 0 s.regs = true) (hc : c ≠ a) :
    (s.setRegBit a i b).reg c = s.reg c := by
  rw [reg_setRegBit hw, if_neg hc]

end

/-! ## What an event leaves of the count -/

/-- From `s` to `t` neither the E-cycle nor the count moves, and WRAPPED stays as it is. -/
structure CountKept (s t : State) : Prop where
  ecyc : t.ecyc = s.ecyc
  now : t.tb.now = s.tb.now
  epoch : t.tb.epoch = s.tb.epoch
  wrapped : BitsKept aTbStat 1 s t

namespace CountKept

variable {s t u : State}

theorem of_same (he : t.ecyc = s.ecyc) (htb : t.tb = s.tb) (hr : t.regs = s.regs) : CountKept s t :=
  ⟨he, by rw [htb], by rw [htb], .of_regs hr⟩

theorem trans (h : CountKept s t) (k : CountKept t u) : CountKept s u :=
  ⟨k.ecyc.trans h.ecyc, k.now.trans h.now, k.epoch.trans h.epoch, h.wrapped.trans k.wrapped⟩

theorem setReg {a : Nat} {w : Word} (ha : aTbStat ≠ a) : CountKept s (s.setReg a w) :=
  ⟨rfl, rfl, rfl, .setReg_other ha⟩

theorem setRegBit {a i : Nat} {b : Bool} (ha : aTbStat ≠ a) : CountKept s (s.setRegBit a i b) :=
  ⟨rfl, rfl, rfl, .setRegBit_other ha⟩

theorem of_ite {c : Prop} [Decidable c] (h : CountKept s t) (k : CountKept s u) : CountKept s (if c then t else u) := by
  split
  · exact h
  · exact k

theorem of_each {α : Type} {l : List α} {f : α → State → State} (h : ∀ x ∈ l, ∀ t, CountKept t (f x t)) (s : State) :
    CountKept s (each l f s) :=
  each_keeps (P := CountKept s) (of_same rfl rfl rfl) fun x hx t ht => ht.trans (h x hx t)

end CountKept

theorem mwFresh_countKept (s : State) : CountKept s (mwFresh s) := by
  unfold mwFresh
  exact .of_ite (.of_same rfl rfl rfl) (.of_same rfl rfl rfl)

/-- A capture copies the count, and of TB_STAT writes its own two bits (R56). -/
theorem tbCapture_countKept (s : State) (byTask : Bool) : CountKept s (tbCapture s byTask) where
  ecyc := rfl
  now := rfl
  epoch := rfl
  wrapped := BitsKept.trans (.trans (.of_regs rfl) (.setRegBit fun _ => by decide)) (.setRegBit fun _ => by decide)

/-- An event counter and its flag stand apart from TB_STAT. -/
theorem bump_countKept {a : Nat} (ha : aTbStat ≠ a) (hsat : aTbStat ≠ (satOf a).1) (s : State) :
    CountKept s (bump s a) := by
  unfold bump
  dsimp only
  split
  · exact .of_ite (.of_same rfl rfl rfl) ⟨rfl, rfl, rfl, (BitsKept.of_regs rfl).trans (.setRegBit_other hsat)⟩
  · exact .setReg ha

/-- The SAT flags of CH_CNT stand in CH_STAT (R441). -/
theorem satOf_chCnt (k : DelayNo) : satOf (0x1060 + k.val) = (aChStat, 8 + k.val) := by
  unfold satOf
  rw [if_neg (by omega), if_neg (by omega), if_neg (by omega), if_pos (by omega)]
  simp

theorem outBit_countKept (s : State) (n : BallNo) (b : Bool) : CountKept s (outBit s n b) :=
  ⟨rfl, rfl, rfl, BitsKept.setRegBit_other (by decide)⟩

theorem beginFieldCut_countKept (s : State) (q : Quad) : CountKept s (beginFieldCut s q) := by
  have hapart (r : Quad) : aTbStat ≠ aQuad r 0x05 := by unfold aTbStat aQuad; omega
  unfold beginFieldCut
  exact .of_ite (.of_each (fun r _ t => .trans (t := t.updQuad r _) (.of_same rfl rfl rfl) (.setRegBit (hapart r))) s)
    (.of_same rfl rfl rfl)

theorem taskAct_countKept (s : State) (t : MwTask) : CountKept s (taskAct s t) := by
  have hstay : CountKept s s := .of_same rfl rfl rfl
  cases t with
  | tbCapture => exact tbCapture_countKept s true
  | dlyStart k => exact .of_ite hstay (.of_same rfl rfl rfl)
  | dlyStop k => exact .of_same rfl rfl rfl
  | cntInc k =>
    refine bump_countKept ?_ ?_ s
    · unfold aTbStat
      omega
    · rw [satOf_chCnt]
      show aTbStat ≠ aChStat
      decide
  | outSet n => exact .of_ite hstay (outBit_countKept s n true)
  | outClr n => exact outBit_countKept s n false
  | outTgl n => exact .of_ite hstay (outBit_countKept s n _)
  | fieldCut q => exact beginFieldCut_countKept s q

/-- The tasks have numbers below 41 (R442). -/
theorem taskNo_lt (t : MwTask) : taskNo t < 41 := by
  cases t <;> simp only [taskNo] <;> omega

theorem deliver_countKept (s : State) (t : MwTask) : CountKept s (deliver s t) := by
  have hno := taskNo_lt t
  have hacted : CountKept s { s with mw := { s.mw with acted := t :: s.mw.acted } } := .of_same rfl rfl rfl
  unfold deliver
  dsimp only
  refine .of_ite (.setRegBit ?_) (.of_ite ?_ (hacted.trans (taskAct_countKept _ t)))
  · unfold aTbStat
    omega
  · split
    · exact hacted.trans (tbCapture_countKept _ true)
    · exact hacted

theorem deliverAll_countKept (s : State) (c dst : Nat) : CountKept s (deliverAll s c dst) :=
  .of_each (fun d _ t => .of_ite (deliver_countKept t d.1) (.of_same rfl rfl rfl)) s

theorem channelFire_countKept {c : Nat} (hc : c < 64) (s : State) (ev : MwEvent) : CountKept s (channelFire s c ev) := by
  have hfired : CountKept s (s.setRegBit (0x1048 + c / 32) (c % 32) true) := .setRegBit (by unfold aTbStat; omega)
  unfold channelFire
  dsimp only
  refine .of_ite (.of_ite ?_ ?_) (.of_same rfl rfl rfl)
  · exact hfired.trans (.of_same rfl rfl rfl)
  · refine CountKept.trans ?_ (deliverAll_countKept _ c _)
    exact hfired.trans (.of_same rfl rfl rfl)

/-- The group tasks act on eight groups (R428). -/
theorem groupTask_lt {ev : MwEvent} {g : Nat} {en : Bool} (h : groupTask ev = some (g, en)) : g < 8 := by
  unfold groupTask at h
  split at h <;> cases h <;> omega

theorem groupAct_countKept (s : State) (ev : MwEvent) : CountKept s (groupAct s ev) := by
  unfold groupAct
  split
  · exact .of_same rfl rfl rfl
  · rename_i g en hg
    have hlt := groupTask_lt hg
    have hset {w : Word} : CountKept s (s.setReg (0x1040 + g) w) := .setReg (by unfold aTbStat; omega)
    refine .of_ite ?_ (.of_same rfl rfl rfl)
    split
    · exact .of_ite (.of_same rfl rfl rfl) hset
    · exact hset.trans (.of_same rfl rfl rfl)

/-- An event moves neither the E-cycle nor the count, and leaves WRAPPED. -/
theorem fire_countKept (s : State) (ev : MwEvent) : CountKept s (fire s ev) := by
  have hchannels : CountKept (mwFresh s) (each (List.range 64) (fun c t => channelFire t c ev) (mwFresh s)) :=
    .of_each (fun c hc t => channelFire_countKept (List.mem_range.mp hc) t ev) _
  exact ((mwFresh_countKept s).trans hchannels).trans (groupAct_countKept _ ev)

theorem raise_countKept (s : State) (ev : MwEvent) : CountKept s (raise s ev) :=
  .of_ite (.of_same rfl rfl rfl) (fire_countKept s ev)

/-! ## An E-cycle passes -/

theorem edgesDue_ecyc (s : State) : (edgesDue s).ecyc = s.ecyc := by
  have hseen (x : Nat × Bool × Nat) (t : State) : (edgeSeen t x).ecyc = t.ecyc := (raise_countKept _ _).ecyc
  exact each_same State.ecyc (fun x _ t => hseen x t) _

theorem armMask_ecyc (s : State) (m : BitVec 16) : (armMask s m).ecyc = s.ecyc :=
  each_same State.ecyc (fun p _ t => by split <;> rfl) s

theorem barkTurn_ecyc (s : State) : (barkTurn s).ecyc = s.ecyc := by
  unfold barkTurn
  split
  · dsimp only
    split
    · exact armMask_ecyc _ _
    · rfl
  · rfl

theorem endStretches_ecyc (s : State) : (endStretches s).ecyc = s.ecyc :=
  each_same State.ecyc (fun h _ t => by
    split
    · split <;> rfl
    · rfl) s

/-- Time passes to the E-cycle it is told. -/
theorem passTo_ecyc (s : State) (e : Nat) : (passTo s e).ecyc = e := by
  unfold passTo
  dsimp only
  rw [edgesDue_ecyc, barkTurn_ecyc, endStretches_ecyc]
  rfl

theorem tbAdvance_ecyc (s : State) : (tbAdvance s).ecyc = s.ecyc := by
  unfold tbAdvance
  dsimp only
  split
  · exact (fire_countKept _ _).ecyc
  · rfl

/-- While the timebase runs, one E-cycle passes, and the queue stays as it is. -/
theorem idleCycle_runs {s : State} (hrun : s.tb.run = true) :
    (idleCycle s).ecyc = s.ecyc + 1 ∧ (idleCycle s).pending = s.pending := by
  have hadvanced : (if edgePending s then tbAdvance s else s).ecyc = s.ecyc ∧
      (if edgePending s then tbAdvance s else s).pending = s.pending := by
    split
    · exact ⟨tbAdvance_ecyc s, (tbAdvance_frame s).1⟩
    · exact ⟨rfl, rfl⟩
  rw [idleCycle, if_pos hrun]
  exact ⟨(passTo_ecyc _ _).trans (by rw [hadvanced.1]), (passTo_frame _ _).1.trans hadvanced.2⟩

/-- Where the timebase does not run, nothing passes. -/
theorem idleCycle_stopped {s : State} (hstop : s.tb.run = false) : idleCycle s = s :=
  if_neg (by simp [hstop])

/-- On an empty queue a step is one idle E-cycle (log entry 12). -/
theorem step_empty {s : State} (h : s.pending = []) : step s = .next (idleCycle s) := by
  rw [step, h]

/-! ## A CLK_T edge -/

/-- At a pending edge the advance is the whole of T_TICK. -/
theorem execTTick_edge {s : State} (hrun : s.tb.run = true) (hedge : edgePending s = true) :
    exec .tTick s = .next (tbAdvance s) := by
  show Host.Outcome.next _ = _
  rw [if_pos hrun, nextTick, if_pos hedge]

/-- At a pending edge and the largest count the advance is the whole of TB_WRAP. -/
theorem execTbWrap_edge {s : State} (hrun : s.tb.run = true) (hedge : edgePending s = true)
    (hmax : s.tb.now = 0xFFFFFFFFFFFF) : exec .tbWrap s = .next (tbAdvance s) := by
  show Host.Outcome.next _ = _
  rw [if_pos (by simp [hrun, hmax]), nextTick, if_pos hedge]

/-- Below its largest value the count advances by one, and nothing else changes (R51). -/
theorem tbAdvance_counts {s : State} (h : s.tb.now ≠ 0xFFFFFFFFFFFF) :
    tbAdvance s = { s with tb := { s.tb with now := s.tb.now + 1 } } := if_neg h

/-- From its largest value the count becomes 0, TB_EPOCH advances and WRAPPED sets (R52). -/
theorem tbAdvance_wraps {s : State} (hw : mwf resetWord 0 s.regs = true) (hmax : s.tb.now = 0xFFFFFFFFFFFF) :
    (tbAdvance s).tb.now = 0 ∧ (tbAdvance s).tb.epoch = s.tb.epoch + 1 ∧
      bitAt ((tbAdvance s).reg aTbStat) 0 = true := by
  have hbit0 (w : Word) : bitAt w 0 = (w &&& 1).getLsbD 0 := by simp [bitAt]
  have hfire := fire_countKept (({ s with tb := { s.tb with now := s.tb.now + 1, epoch := s.tb.epoch + 1 } } :
    State).setRegBit aTbStat 0 true) .tbWrap
  rw [tbAdvance, if_pos hmax]
  refine ⟨hfire.now.trans ?_, hfire.epoch, ?_⟩
  · show s.tb.now + 1 = 0
    rw [hmax]
    rfl
  · rw [hbit0]
    refine (congrArg (·.getLsbD 0) (hfire.wrapped (setReg_regsOk hw)).2).trans ?_
    rw [← hbit0]
    exact bitAt_setRegBit_same hw (by decide)

/-! ## A capture (R56) -/

@[simp] theorem showMade_tb (s : State) (a : Nat) : (showMade s a).tb = s.tb := by unfold showMade; split <;> rfl

@[simp] theorem showMade_reg (s : State) (a b : Nat) : (showMade s a).reg b = s.reg b := by unfold showMade; split <;> rfl

/-- A capture writes CAP_SRC and sets CAP_VALID in TB_STAT, and no other register word. -/
theorem tbCapture_reg {s : State} (hw : mwf resetWord 0 s.regs = true) (byTask : Bool) :
    bitAt ((tbCapture s byTask).reg aTbStat) 1 = true ∧ ∀ b, b ≠ aTbStat → (tbCapture s byTask).reg b = s.reg b := by
  unfold tbCapture
  dsimp only
  exact ⟨bitAt_setRegBit_same (setRegBit_regsOk hw) (by decide),
    fun b hb => (reg_setRegBit_other (setRegBit_regsOk hw) hb).trans (reg_setRegBit_other hw hb)⟩

/-- Settles O2: an idle E-cycle ends in `passTo`, an edge is `tbAdvance`, whose event moves neither the count nor WRAPPED,
and a capture writes TB_STAT alone. -/
theorem timePassesAndTheTimebaseCounts : Obligations.TimePassesAndTheTimebaseCounts := by
  unfold Obligations.TimePassesAndTheTimebaseCounts
  refine ⟨fun s hempty => ⟨fun hrun => ?_, fun hstop => ?_⟩, fun s hrun hm hedge => ⟨fun hlow => ?_, fun hmax => ?_⟩,
    fun s hrun hm => ?_⟩
  · obtain ⟨hecyc, hpending⟩ := idleCycle_runs hrun
    exact ⟨_, step_empty hempty, hecyc, hpending.trans hempty⟩
  · rw [step_empty hempty, idleCycle_stopped hstop]
  · rw [execTTick_edge hrun hedge, tbAdvance_counts hlow]
  · obtain ⟨hnow, hepoch, hwrapped⟩ := tbAdvance_wraps (registers_of_mapsOk hm).1 hmax
    exact ⟨_, execTbWrap_edge hrun hedge hmax, execTTick_edge hrun hedge, hnow, hepoch, hwrapped, tbAdvance_ecyc s⟩
  · obtain ⟨hvalid, hother⟩ := tbCapture_reg (registers_of_mapsOk hm).1 false
    refine ⟨tbWriteCapture s, congrArg Host.Outcome.next (if_pos hrun), ?_⟩
    simp only [tbWriteCapture, showMade_tb, showMade_reg]
    exact ⟨rfl, rfl, rfl, rfl, rfl, hvalid, hother⟩

end Sys2Proof.Machine

/-! # Event counters and the reads that clear them (R60, R61, R409) -/

namespace Sys2Proof.Machine

/-! ## Where the counters stand -/

/-- The word addresses of the event counters, bank by bank. -/
inductive CounterWord (a : Nat) : Prop
  | sys (h : a = 0x0102 ∨ a = 0x0103 ∨ a = 0x0162 ∨ a = 0x0163)
  | port (hlo : 0x0400 ≤ a) (hhi : a < 0x0800) (h : a % 64 = 0x0D ∨ 0x17 ≤ a % 64 ∧ a % 64 < 0x1C ∨ a % 64 = 0x2F)
  | quad (hlo : 0x0800 ≤ a) (hhi : a < 0x0900) (h : a % 64 = 0x07)
  | midway (hlo : 0x1060 ≤ a) (hhi : a < 0x1068)
  | crc (hlo : 0x1400 ≤ a) (hhi : a < 0x1480) (h : a % 16 = 9)
  | mp (hlo : 0x1806 ≤ a) (hhi : a < 0x1809)
  | hp (hlo : 0x2000 ≤ a) (hhi : a < 0x2040) (h : 3 ≤ a % 16 ∧ a % 16 < 8)

/-- The numbers of a table's rows that are counters. -/
def counterRows (l : List (Nat × RegDef)) : List Nat := (l.filter (·.2.rcl)).map (·.1)

/-- A register of the field map that is a counter has property `P`. -/
def CountersIn (P : Prop) (o : Option RegDef) : Prop := o.any (·.rcl) = true → P

namespace CountersIn

variable {P : Prop} {o o' : Option RegDef} {c : Prop} [Decidable c]

theorem of_plain (h : o.any (·.rcl) = false) : CountersIn P o := fun k => by simp [h] at k

theorem ite (h : c → CountersIn P o) (h' : ¬ c → CountersIn P o') : CountersIn P (if c then o else o') := by
  split
  · exact h ‹_›
  · exact h' ‹_›

/-- A register that is no counter comes first. -/
theorem ite_plain (h : o.any (·.rcl) = false) (h' : ¬ c → CountersIn P o') : CountersIn P (if c then o else o') :=
  ite (fun _ => of_plain h) h'

/-- A counter found in a table stands at one of its counter rows. -/
theorem of_table {l : List (Nat × RegDef)} {k : Nat} (rows : List Nat) (hl : counterRows l = rows) (h : k ∈ rows → P) :
    CountersIn P (findReg l k) := fun hk => by
  obtain ⟨r, hr, hrcl⟩ := (Option.any_eq_true _ _).mp hk
  refine h ?_
  rw [← hl]
  exact List.mem_map.mpr ⟨(k, r), List.mem_filter.mpr ⟨findReg_mem hr, hrcl⟩, rfl⟩

end CountersIn

/-- The counters of the fabric are CH_CNT (R441). -/
theorem midwayReg_counters (a : Nat) : CountersIn (0x1060 ≤ a ∧ a < 0x1068) (midwayReg a) := by
  unfold midwayReg
  iterate 12 refine CountersIn.ite_plain rfl fun _ => ?_
  exact .ite (fun _ _ => by omega) fun _ => .of_plain rfl

/-- The counter of a CRC unit is CU_FAILS, of bound units too (R462). -/
theorem crcReg_counters (a : Nat) : CountersIn (a < 0x1480 ∧ a % 16 = 9) (crcReg a) := by
  have hrow : CountersIn (a % 16 = 9) (findReg cuTable (a % 16)) :=
    .of_table [0x09] (by decide) List.mem_singleton.mp
  unfold crcReg
  refine .ite (fun hlt h => ⟨hlt, hrow ?_⟩) fun _ => .ite_plain rfl fun _ => .ite_plain rfl fun _ => .of_plain rfl
  split at h
  · cases h
  · rename_i r hr
    rw [hr]
    split at h <;> exact h

/-- The field map's counters stand at the counter words (R409). -/
theorem regDef_counters (a : Nat) : CountersIn (CounterWord a) (regDef a) := by
  have hsys (hlo : 0x0100 ≤ a) : CountersIn (CounterWord a) (findReg sysTable (a - 0x0100)) :=
    .of_table [0x02, 0x03, 0x62, 0x63] (by decide) fun hrow => .sys <| by
      simp only [List.mem_cons, List.not_mem_nil, or_false] at hrow
      omega
  unfold regDef
  refine .ite (fun _ => .of_table [] (by decide) fun hrow => absurd hrow List.not_mem_nil) fun _ => ?_
  iterate 2 refine CountersIn.ite_plain rfl fun _ => ?_
  refine .ite (fun _ => hsys (by omega)) fun _ => .ite_plain rfl fun _ => .ite (fun _ => hsys (by omega)) fun _ => ?_
  refine .ite (fun hend => .of_table [0x0D, 0x17, 0x18, 0x19, 0x1A, 0x1B, 0x2F] (by decide) fun hrow => ?_) fun _ => ?_
  · refine .port (by omega) hend ?_
    simp only [List.mem_cons, List.not_mem_nil, or_false] at hrow
    omega
  refine .ite (fun hend => .of_table [0x07] (by decide) fun hrow => ?_) fun _ => .ite_plain rfl fun _ => ?_
  · exact .quad (by omega) hend (List.mem_singleton.mp hrow)
  refine .ite (fun _ h => ?_) fun _ => .ite (fun _ h => ?_) fun _ => ?_
  · exact .midway (midwayReg_counters a h).1 (midwayReg_counters a h).2
  · exact .crc (by omega) (crcReg_counters a h).1 (crcReg_counters a h).2
  refine .ite (fun _ => .of_table [0x06, 0x07, 0x08] (by decide) fun hrow => ?_) fun _ => ?_
  · simp only [List.mem_cons, List.not_mem_nil, or_false] at hrow
    exact .mp (by omega) (by omega)
  refine .ite (fun _ => .of_table [] (by decide) fun hrow => absurd hrow List.not_mem_nil) fun _ => ?_
  refine .ite (fun hend => .of_table [0x03, 0x04, 0x05, 0x06, 0x07] (by decide) fun hrow => ?_) fun _ => ?_
  · refine .hp (by omega) hend ?_
    simp only [List.mem_cons, List.not_mem_nil, or_false] at hrow
    omega
  iterate 5 refine CountersIn.ite_plain rfl fun _ => ?_
  exact .of_plain rfl

/-- What an RCL counter is: a register of the field map that reads clear, present on the variant (R409). -/
theorem isRcl_iff {s : State} {a : Nat} :
    isRcl s a = true ↔ regPresent s.variant a = true ∧ (regDef a).any (·.rcl) = true := by
  rw [isRcl, Bool.and_eq_true]
  cases regDef a <;> rfl

/-- The SAT flag of a counter is a bit of another word. -/
theorem satOf_counter {a : Nat} (h : CounterWord a) : (satOf a).1 ≠ a ∧ (satOf a).2 < 32 := by
  unfold satOf
  cases h with
  | sys h => rcases h with rfl | rfl | rfl | rfl <;> decide
  | port hlo hhi h =>
    rw [if_neg (by omega), if_pos (by omega)]
    split
    next => dsimp only; omega
    split
    next => dsimp only; omega
    dsimp only
    omega
  | quad hlo hhi h =>
    rw [if_neg (by omega), if_neg (by omega), if_pos (by omega)]
    dsimp only
    omega
  | midway hlo hhi =>
    rw [if_neg (by omega), if_neg (by omega), if_neg (by omega), if_pos (by omega)]
    dsimp only [aChStat]
    omega
  | crc hlo hhi h =>
    iterate 4 rw [if_neg (by omega)]
    rw [if_pos (by omega)]
    dsimp only
    omega
  | mp hlo hhi =>
    iterate 5 rw [if_neg (by omega)]
    rw [if_pos (by omega)]
    dsimp only [aMpStat]
    omega
  | hp hlo hhi h =>
    iterate 6 rw [if_neg (by omega)]
    dsimp only
    omega

/-! ## A counter read -/

/-- A counter reads as its register word, on every path (R406, R408). -/
theorem peek_counter {s : State} {h : HostPort} {a : Nat} (hr : isRcl s a = true) : peek s h a = s.view a := by
  obtain ⟨hpresent, hrcl⟩ := isRcl_iff.mp hr
  have hdef : (regDef a).isNone = false := by
    cases hd : regDef a with
    | none => simp [hd] at hrcl
    | some r => rfl
  rw [peek, if_neg (by simp [hpresent, hdef])]
  cases regDef_counters a hrcl with
  | sys hat => rw [if_neg (by omega), if_neg (by omega), if_pos (by omega)]
  | port hlo hhi hat =>
    have hlevel : a % 64 ≠ 0x0C := by omega
    rw [if_neg (by omega), if_neg (by omega), if_neg (by omega), if_pos hhi, peekPort, if_neg (by omega),
      if_neg (by simp [hlevel])]
  | quad hlo hhi hat =>
    rw [if_neg (by omega), if_neg (by omega), if_neg (by omega), if_neg (by omega), if_pos (by omega), peekQuad,
      if_neg (by simp [hat])]
  | midway hlo hhi =>
    iterate 5 rw [if_neg (by omega)]
    rw [if_pos (by omega), peekMidway, if_neg (by omega), if_neg (by omega), if_neg (by unfold aChStat; omega)]
  | crc hlo hhi hat =>
    iterate 6 rw [if_neg (by omega)]
    rw [if_pos (by omega), peekCrc, if_neg (by omega), if_neg (by omega)]
  | mp hlo hhi =>
    iterate 7 rw [if_neg (by omega)]
    rw [if_pos (by omega), peekMp, if_neg (by unfold aMpStat; omega)]
  | hp hlo hhi hat =>
    iterate 9 rw [if_neg (by omega)]
    rw [if_pos (by omega), peekHp, if_neg (by omega), if_neg (by omega), if_neg (by omega)]

/-- The effect of reading a counter is that it clears (R409). -/
theorem readEffects_counter {s : State} {h : HostPort} {a : Nat} (hr : isRcl s a = true) :
    readEffects s h a = clearCnt s a := by
  have hrcl := (isRcl_iff.mp hr).2
  have hne {b : Nat} (hb : (regDef b).any (·.rcl) = false) : a ≠ b := by
    rintro rfl
    simp [hb] at hrcl
  rw [readEffects, if_neg (hne rfl), if_neg (hne rfl), if_neg (hne rfl), if_neg (hne rfl), if_neg (hne rfl), if_pos hr]

/-- A counter cleared holds the counts its read did not see, and every other register is as before (R61). -/
theorem clearCnt_reg {s : State} {a b : Nat} (hw : mwf resetWord 0 s.regs = true) :
    (clearCnt s a).reg b = if b = a then unseenCount s a else s.reg b := by
  have hput : (clearCnt s a).reg b = ((s.setView a (unseenCount s a)).setReg a (unseenCount s a)).reg b := rfl
  rw [hput, reg_setReg (by simpa using hw), setView_reg]

/-- A counter cleared may saturate again (R60). -/
theorem not_mem_past_clearCnt (s : State) (a : Nat) : a ∉ (clearCnt s a).past := by
  simp [clearCnt]

/-- Where the E-cycle has brought no count, none is kept. -/
theorem unseenCount_eq_zero {s : State} {a : Nat} (hv : s.view a = s.reg a) (hmore : a ∉ s.cut.more) :
    unseenCount s a = 0 := by
  simp [unseenCount, hv, hmore]

/-- What a read returns and what it leaves make up every count: none is lost (R61). -/
theorem view_add_unseenCount (s : State) (a : Nat) :
    s.view a + unseenCount s a = s.reg a + (if s.cut.at_ = s.ecyc ∧ a ∈ s.cut.more then 1 else 0) := by
  unfold unseenCount
  by_cases hat : s.cut.at_ = s.ecyc
  · simp only [hat, true_and, if_true, List.contains_iff_mem]
    rw [← BitVec.add_assoc, BitVec.add_comm (s.view a), BitVec.sub_add_cancel]
  · simp [State.view, hat]

/-- RCL_READ_CLEAR of a counter: it is returned as seen, and cleared (R61, R409). -/
theorem execRclReadClear_counter {h : HostPort} {a : BitVec 16} {s : State} (hrun : s.tb.run = true)
    (hr : isRcl s a.toNat = true) :
    exec (.rclReadClear h a) s = .next { clearCnt s a.toNat with lastRead := s.view a.toNat } := by
  show Host.Outcome.next _ = _
  rw [if_pos (by simp [hrun, hr]), readEffects_counter hr, peek_counter hr]

/-! ## A counter that counts -/

/-- The first count past the largest value leaves the counter there, sets its SAT flag and makes one CNT_SAT due (R60). -/
theorem bump_saturates_reg {s : State} {a : Nat} (hw : mwf resetWord 0 s.regs = true) (hat : CounterWord a)
    (hmax : s.reg a = 0xFFFFFFFF) (hfirst : a ∉ s.past) :
    (bump s a).reg a = 0xFFFFFFFF ∧ (bump s a).cntSat = s.cntSat ++ [s.ecyc] ∧
      bitAt ((bump s a).reg (satOf a).1) (satOf a).2 = true := by
  obtain ⟨hne, hbit⟩ := satOf_counter hat
  rw [bump_saturates hmax (by simpa using hfirst)]
  exact ⟨(reg_setRegBit_other hw hne.symm).trans hmax, rfl, bitAt_setRegBit_same hw hbit⟩

/-- A further count changes no register and makes nothing due (R60). -/
theorem bump_holds_all {s : State} {a : Nat} (hmax : s.reg a = 0xFFFFFFFF) (hpast : a ∈ s.past) :
    (bump s a).regs = s.regs ∧ (bump s a).cntSat = s.cntSat ∧ (bump s a).past = s.past := by
  rw [bump_holds hmax (by simpa using hpast)]
  exact ⟨rfl, rfl, rfl⟩

/-- At its largest value a counter holds, for a first count past it and for every further one (R60). -/
theorem bump_reg_max {s : State} {a : Nat} (hw : mwf resetWord 0 s.regs = true) (hat : CounterWord a)
    (hmax : s.reg a = 0xFFFFFFFF) : (bump s a).reg a = 0xFFFFFFFF := by
  by_cases hpast : a ∈ s.past
  · rw [State.reg, (bump_holds_all hmax hpast).1]
    exact hmax
  · exact (bump_saturates_reg hw hat hmax hpast).1

/-- Settles O16: a counter's read is `clearCnt`, which keeps the counts unseen, and a count is one of `bump`'s three
outcomes. -/
theorem countersClearAndSaturate : Obligations.CountersClearAndSaturate := by
  unfold Obligations.CountersClearAndSaturate
  refine ⟨fun h a s hrun hm hr => ?_, fun s a hm hrcl => ⟨fun hlow => ?_, fun hmax => ⟨?_, fun hfirst => ?_, ?_⟩⟩⟩
  · have hreg (b : Nat) := clearCnt_reg (a := a.toNat) (b := b) (registers_of_mapsOk hm).1
    have hkept : (clearCnt s a.toNat).reg a.toNat = unseenCount s a.toNat := (hreg _).trans (if_pos rfl)
    refine ⟨_, execRclReadClear_counter hrun hr, rfl, fun hv hmore => hkept.trans (unseenCount_eq_zero hv hmore), ?_,
      fun b hb => (hreg b).trans (if_neg hb), not_mem_past_clearCnt s _, State.clearCnt_quads .., State.clearCnt_hosts ..,
      State.clearCnt_car ..⟩
    exact (congrArg (s.view a.toNat + ·) hkept).trans (view_add_unseenCount s a.toNat)
  · rw [bump_counts hlow, reg_setReg (registers_of_mapsOk hm).1, if_pos rfl]
    exact ⟨rfl, rfl⟩
  · exact bump_reg_max (registers_of_mapsOk hm).1 (regDef_counters a hrcl) hmax
  · exact (bump_saturates_reg (registers_of_mapsOk hm).1 (regDef_counters a hrcl) hmax hfirst).2
  · exact bump_holds_all hmax

end Sys2Proof.Machine

/-! # The even parity of WALK0 and WALK1 (R70, R96) -/

namespace Sys2Proof.Machine

/-- Folding bits with exclusive or flips the start where the number of 1 bits is odd. -/
theorem foldl_bne_parity (bs : List Bool) (a : Bool) :
    bs.foldl (fun a x => a != x) a = (a != decide ((bs.filter id).length % 2 = 1)) := by
  induction bs generalizing a with
  | nil => simp
  | cons x xs ih =>
    rw [List.foldl_cons, ih]
    cases x
    · simp
    · rcases Nat.mod_two_eq_zero_or_one (xs.filter id).length with h | h <;> simp [h, Nat.add_mod]

/-- Bits with their exclusive or behind them hold an even number of 1 bits. -/
theorem even_ones_append_parity (bs : List Bool) :
    ((bs ++ [bs.foldl (fun a x => a != x) false]).filter id).length % 2 = 0 := by
  rw [foldl_bne_parity, List.filter_append, List.length_append]
  rcases Nat.mod_two_eq_zero_or_one (bs.filter id).length with h | h <;> simp [h, Nat.add_mod]

/-- A Stamet command's first six bits: the opcode, then RL, which is RID bits 1 and 0 (R91, R96). -/
theorem stHead_bits (opc : Nat) (rid : BitVec 8) :
    stHead opc rid = [opc.testBit 3, opc.testBit 2, opc.testBit 1, opc.testBit 0, rid.getLsbD 1, rid.getLsbD 0] := by
  have hrl (i : Nat) (hi : i < 2) : (rid.toNat % 4).testBit i = rid.getLsbD i := by
    rw [show 4 = 2 ^ 2 from rfl, Nat.testBit_mod_two_pow, decide_eq_true hi, Bool.true_and, BitVec.testBit_toNat]
  simp [stHead, bitsMsb, hrl]

/-- The seven bits of WALK0 and WALK1: the opcode, of which three bits turn with `b`, then RL and P, which turns too. -/
theorem stExtend_bits (rid : BitVec 8) (b : Bool) :
    stExtend rid b = [false, b, !b, !b, rid.getLsbD 1, rid.getLsbD 0, (b != rid.getLsbD 1) != rid.getLsbD 0] := by
  cases b <;> simp [stExtend, stHead_bits, Nat.testBit]

/-- WALK0 and WALK1 hold an even number of 1 bits. -/
theorem stExtend_even_ones (rid : BitVec 8) (b : Bool) : ((stExtend rid b).filter id).length % 2 = 0 :=
  even_ones_append_parity _

/-- WALK0 and WALK1 of one RID differ in four bits: three of the opcode, and P. -/
theorem stExtend_distance (rid : BitVec 8) (b : Bool) :
    (((stExtend rid b).zip (stExtend rid (!b))).filter (fun e => e.1 != e.2)).length = 4 := by
  rw [stExtend_bits, stExtend_bits]
  simp

/-- Settles O55: the frame's seven bits written out give the opcode, RL and the length; that a word with its exclusive or
behind it has even parity gives the rest, and the two frames are four bits apart. -/
theorem extensionsCarryEvenParity : Obligations.ExtensionsCarryEvenParity := by
  unfold Obligations.ExtensionsCarryEvenParity
  intro rid b
  refine ⟨?opcode, ?rl, ?length, stExtend_even_ones rid b, ?distance⟩
  case opcode => cases b <;> simp [stExtend_bits]
  case rl => simp [stExtend_bits]
  case length => simp [stExtend_bits]
  case distance => simp [stExtend_distance]

end Sys2Proof.Machine
